-- ==== Sys2Proof/Word.lean ====
section
/-! DEFINITION. The widths of rule R6 (spec/00_scope.md) as types. Every value of the block is an unsigned bit vector
of its stated width (R9, R73). -/

namespace Sys2Proof

/-- One bit of a command word or a frame (R9): `chk`, R/W, R/W echo. -/
abbrev Bit := BitVec 1

/-- Eight bits: a CRC, a fault bitmap, one byte of the exchange (R6: CRC_BITS, FAULT_BITMAP_BITS). -/
abbrev Byte := BitVec 8

/-- A 32-bit wire frame (R6: FRAME_BITS), bit 31 first on the wire (R28). -/
abbrev Frame := BitVec 32

/-- The 24 bits of a frame that its CRC covers (R6: CRC_MSG_BITS). -/
abbrev Body := BitVec 24

/-- A 10-bit logical register address (R6: ADDR_BITS). -/
abbrev RegAddr := BitVec 10

end Sys2Proof
end

