-- ==== Sys2Proof/Machine/Operands.lean ====
section
/-! DEFINITION. Every operand form (R45), every field of a frame (R46 to R55), the bodies the layouts build, and the byte
order of a frame in the exchange (R29, R30). -/

namespace Sys2Proof.Machine

/-! ## Operands of a command (R45) -/

/-- The message operand of CRC8: `m = A[23:0]`. -/
def operandMessage (a : BitVec 32) : Body := a.extractLsb' 0 24

/-- The address operand of ENCR and ENCW: `addr = A[9:0]`. -/
def operandAddr (a : BitVec 32) : RegAddr := a.extractLsb' 0 10

/-! ## Parts of a register address (R49) -/

/-- `addr[9:3]`, which a request carries in its AddressField. -/
def addrUpper (addr : RegAddr) : BitVec 7 := addr.extractLsb' 3 7

/-- `addr[2:0]`, which only a read request carries. -/
def addrLower (addr : RegAddr) : BitVec 3 := addr.extractLsb' 0 3

/-! ## Fields of every frame (R46, R50) -/

/-- `f[31:24]`: the CRC field. -/
def frameCrc (f : Frame) : Byte := f.extractLsb' 24 8

/-- `f[23:0]`: the bits the CRC covers. -/
def frameBody (f : Frame) : Body := f.extractLsb' 0 24

/-- A frame from its CRC field and its body. -/
def frameOf (crc : Byte) (body : Body) : Frame := crc ++ body

/-! ## Fields of a request frame (R46) -/

/-- `f[23:17]`: the AddressField. -/
def frameAddrField (f : Frame) : BitVec 7 := f.extractLsb' 17 7

/-- `f[16]`: R/W, 1 = write. In a 16-bit reply, the R/W echo (R53). -/
def frameRw (f : Frame) : Bit := f.extractLsb' 16 1

/-- `f[15:0]`: the DataField. In a 16-bit reply, the data (R53). -/
def frameData (f : Frame) : BitVec 16 := f.extractLsb' 0 16

/-- `f[15:3]`: the don't-care bits of a read request (R56). -/
def frameDontCare (f : Frame) : BitVec 13 := f.extractLsb' 3 13

/-- `f[2:0]`: the low address bits of a read request (R47). -/
def frameAddrLow (f : Frame) : BitVec 3 := f.extractLsb' 0 3

/-- R71: the register address of a request frame. A write does not carry `addr[2:0]`; they are reported as zero. -/
def requestAddr (f : Frame) : RegAddr :=
  if frameRw f = 0#1 then frameAddrField f ++ frameAddrLow f else frameAddrField f ++ 0#3

/-- R47: the body of a read request, `addrField ++ 0 ++ dontCare ++ addrLow`. ENCR drives the don't-care bits to 0. -/
def readBody (addrField : BitVec 7) (dontCare : BitVec 13) (addrLow : BitVec 3) : Body :=
  addrField ++ 0#1 ++ dontCare ++ addrLow

/-- R48: the body of a write request, `addrField ++ 1 ++ value`. -/
def writeBody (addrField : BitVec 7) (value : BitVec 16) : Body := addrField ++ 1#1 ++ value

/-! ## Fields of a reply frame (R50 to R55) -/

/-- `f[23:22]`: the reply mode (R51). -/
def frameMode (f : Frame) : BitVec 2 := f.extractLsb' 22 2

/-- `f[21:17]`: the status of a 16-bit reply (R53). -/
def frameStatus (f : Frame) : BitVec 5 := f.extractLsb' 17 5

/-- `f[21:0]`: the data of a 22-bit reply (R54), or the raw bits of reply mode 11 (R82). -/
def frameData22 (f : Frame) : BitVec 22 := f.extractLsb' 0 22

/-- `f[21:8]`: the undefined bits of a critical-fault reply (R55). -/
def frameIgnored (f : Frame) : BitVec 14 := f.extractLsb' 8 14

/-- `f[7:0]`: the fault bitmap (R55). -/
def frameBitmap (f : Frame) : Byte := f.extractLsb' 0 8

/-- R53: the body of a 16-bit reply. -/
def reply16Body (status : BitVec 5) (rwEcho : Bit) (data : BitVec 16) : Body := 0b00#2 ++ status ++ rwEcho ++ data

/-- R54: the body of a 22-bit reply. -/
def reply22Body (data22 : BitVec 22) : Body := 0b01#2 ++ data22

/-- R55: the body of a critical-fault reply. -/
def criticalBody (ignored : BitVec 14) (bitmap : Byte) : Body := 0b10#2 ++ ignored ++ bitmap

/-- R52: the body of a reply with the reserved mode. -/
def reservedModeBody (raw : BitVec 22) : Body := 0b11#2 ++ raw

/-! ## The four bytes of the exchange (R29, R30) -/

/-- R29: `tx[0..3]`, most significant byte first. -/
def bytesOfFrame (f : Frame) : List Byte :=
  [f.extractLsb' 24 8, f.extractLsb' 16 8, f.extractLsb' 8 8, f.extractLsb' 0 8]

/-- R30: `f = rx[0] ++ rx[1] ++ rx[2] ++ rx[3]`. Other lengths are no frame (R33). -/
def frameOfBytes : List Byte → Option Frame
  | [rx0, rx1, rx2, rx3] => some (rx0 ++ rx1 ++ rx2 ++ rx3)
  | _ => none

end Sys2Proof.Machine
end

