-- ==== Sys2Proof/Syntax.lean ====
section
/-! DEFINITION. What the host can present: the command record (R21), the bytes of a transfer (R29, R30), assembler lines
(R59, R60), and `Instr`, one constructor for each row of spec/opcode_table.json. -/

namespace Sys2Proof

/-- R21: the record the host presents in one step. The command word is `chk ++ op` (R43). Every field has its exact
width, so no out-of-range operand can be presented (R22). -/
structure Command where
  /-- Operation selector (R44). -/
  op : BitVec 3
  /-- CRC check enable (R23). -/
  chk : Bit
  /-- Operand A: a frame, a message in A[23:0], or an address in A[9:0] (R45). -/
  a : BitVec 32
  /-- Operand B: the write value of ENCW (R45). -/
  b : BitVec 16
deriving DecidableEq, Repr

/-- One constructor for each row of spec/opcode_table.json.

A command-word row (R44) carries the whole rest of its command record, the bits it ignores among them, so that what
R45 says is ignored can be stated. A frame-layout row (R47, R48, R52 to R55) carries the fields of its layout, and the
check enable with which the host brings it to the decoder of its direction (log entry 10). -/
inductive Instr where
  /-- R65: the CRC-8 of A[23:0]. -/
  | crc8 (chk : Bit) (a : BitVec 32) (b : BitVec 16)
  /-- R66: verify the CRC field of frame A. -/
  | crcchk (chk : Bit) (a : BitVec 32) (b : BitVec 16)
  /-- R67: encode a read request for address A[9:0]. -/
  | encr (chk : Bit) (a : BitVec 32) (b : BitVec 16)
  /-- R68: encode a write request for address A[9:0] and value B. -/
  | encw (chk : Bit) (a : BitVec 32) (b : BitVec 16)
  /-- R70: decode request frame A. -/
  | decreq (chk : Bit) (a : BitVec 32) (b : BitVec 16)
  /-- R74: decode reply frame A. -/
  | decrep (chk : Bit) (a : BitVec 32) (b : BitVec 16)
  /-- R57: illegal. -/
  | reservedOp110 (chk : Bit) (a : BitVec 32) (b : BitVec 16)
  /-- R57: illegal. -/
  | reservedOp111 (chk : Bit) (a : BitVec 32) (b : BitVec 16)
  /-- R47: a request frame with R/W = 0. -/
  | frameReadRequest (chk : Bit) (crc : Byte) (addrField : BitVec 7) (dontCare : BitVec 13) (addrLow : BitVec 3)
  /-- R48: a request frame with R/W = 1. -/
  | frameWriteRequest (chk : Bit) (crc : Byte) (addrField : BitVec 7) (value : BitVec 16)
  /-- R53: a reply frame with reply mode 00. -/
  | frameStatusReply16 (chk : Bit) (crc : Byte) (status : BitVec 5) (rwEcho : Bit) (data : BitVec 16)
  /-- R54: a reply frame with reply mode 01. -/
  | frameStatusReply22 (chk : Bit) (crc : Byte) (data22 : BitVec 22)
  /-- R55: a reply frame with reply mode 10. -/
  | frameCriticalFault (chk : Bit) (crc : Byte) (ignored : BitVec 14) (bitmap : Byte)
  /-- R52: a reply frame with reply mode 11. -/
  | frameReservedReplyMode11 (chk : Bit) (crc : Byte) (raw : BitVec 22)
deriving DecidableEq, Repr

/-- Which way a frame travels. The frame does not say (R58, R87): direction on the wire is the host's business. -/
inductive Direction where
  /-- Host to device. -/
  | request
  /-- Device to host. -/
  | reply
deriving DecidableEq, Repr

/-- What stands at the command input. -/
inductive Presented where
  /-- A command record (R21). -/
  | command (c : Command)
  /-- The bytes of a transfer, first on the wire first (R29, R30), brought to the decoder of their direction. -/
  | transfer (dir : Direction) (chk : Bit) (bytes : List Byte)
deriving DecidableEq, Repr

/-- R59: an operand of an assembler line. -/
inductive AsmOperand where
  /-- A literal of any size. The column it stands in takes the bits its width has room for (R22). -/
  | lit (v : Nat)
  /-- `%k`, the frame that the k-th command's outcome returned. -/
  | ref (k : Nat)
deriving DecidableEq, Repr

/-- R59, R60: one line of a host command sequence. -/
inductive AsmLine where
  | crc8 (m : AsmOperand)
  | crcchk (f : AsmOperand)
  | encr (addr : AsmOperand)
  | encw (addr val : AsmOperand)
  | decreq (f : AsmOperand)
  | decreqNc (f : AsmOperand)
  | decrep (f : AsmOperand)
  | decrepNc (f : AsmOperand)
  /-- R60: another spelling of `decreq`. -/
  | decreqC (f : AsmOperand)
  /-- R60: another spelling of `decrep`. -/
  | decrepC (f : AsmOperand)
deriving DecidableEq, Repr

/-- The operands of a line, from left to right. -/
def AsmLine.operands : AsmLine → List AsmOperand
  | .crc8 m => [m]
  | .crcchk f => [f]
  | .encr addr => [addr]
  | .encw addr val => [addr, val]
  | .decreq f => [f]
  | .decreqNc f => [f]
  | .decrep f => [f]
  | .decrepNc f => [f]
  | .decreqC f => [f]
  | .decrepC f => [f]

/-- One action of the host, the only agent (R13). -/
inductive HostAction where
  /-- Present a command record or a transfer. -/
  | present (p : Presented)
  /-- Present the command that an assembler line stands for (R59). -/
  | line (l : AsmLine)
  /-- Read the outcome output (R24, R25). -/
  | readOutput
  /-- Assert a reset input between two commands (R104). -/
  | pulseReset
  /-- Present a command during reset, which the host must not do (R104). -/
  | presentInReset (p : Presented)
deriving DecidableEq, Repr

end Sys2Proof
end

