-- ==== Sys2Proof/Decode.lean ====
section
/-! DEFINITION. The decoder, total on anything presented, and after it the encoder, both from the tables of
spec/30_encoding.md; then the same encodings numbered as spec/opcode_table.json numbers them. -/

namespace Sys2Proof

open Machine

/-- Why the decoder rejects what is presented. -/
inductive DecodeReject where
  /-- R33: a transfer of `n` bytes, `n ≠ 4`, is not a frame. -/
  | notFourBytes (n : Nat)
deriving DecidableEq, Repr

/-- R44: the operation selector. All 8 values have a row, so no command word is left over (R58). -/
def decodeCommand (c : Command) : Instr :=
  match c.op.toNat with
  | 0 => .crc8 c.chk c.a c.b
  | 1 => .crcchk c.chk c.a c.b
  | 2 => .encr c.chk c.a c.b
  | 3 => .encw c.chk c.a c.b
  | 4 => .decreq c.chk c.a c.b
  | 5 => .decrep c.chk c.a c.b
  | 6 => .reservedOp110 c.chk c.a c.b
  | _ => .reservedOp111 c.chk c.a c.b

/-- R46: R/W selects the layout of a request frame. -/
def decodeRequestFrame (chk : Bit) (f : Frame) : Instr :=
  if frameRw f = 0#1 then
    .frameReadRequest chk (frameCrc f) (frameAddrField f) (frameDontCare f) (frameAddrLow f)
  else
    .frameWriteRequest chk (frameCrc f) (frameAddrField f) (frameData f)

/-- R51: the reply mode selects the layout of a reply frame. -/
def decodeReplyFrame (chk : Bit) (f : Frame) : Instr :=
  match (frameMode f).toNat with
  | 0 => .frameStatusReply16 chk (frameCrc f) (frameStatus f) (frameRw f) (frameData f)
  | 1 => .frameStatusReply22 chk (frameCrc f) (frameData22 f)
  | 2 => .frameCriticalFault chk (frameCrc f) (frameIgnored f) (frameBitmap f)
  | _ => .frameReservedReplyMode11 chk (frameCrc f) (frameData22 f)

/-- A frame's layout is chosen by its direction and its own bits, never by a length field (R58). -/
def decodeFrame (dir : Direction) (chk : Bit) (f : Frame) : Instr :=
  match dir with
  | .request => decodeRequestFrame chk f
  | .reply => decodeReplyFrame chk f

/-- The instruction that stands at the command input. The bytes of a transfer are put together first (R30). -/
def decode : Presented → Except DecodeReject Instr
  | .command c => .ok (decodeCommand c)
  | .transfer dir chk bytes =>
    match frameOfBytes bytes with
    | some f => .ok (decodeFrame dir chk f)
    | none => .error (.notFourBytes bytes.length)

/-- The command record with selector `op`. -/
def commandOf (op : BitVec 3) (chk : Bit) (a : BitVec 32) (b : BitVec 16) : Presented :=
  .command { op := op, chk := chk, a := a, b := b }

/-- A frame on its way as the four bytes of R29. -/
def transferOf (dir : Direction) (chk : Bit) (crc : Byte) (body : Body) : Presented :=
  .transfer dir chk (bytesOfFrame (frameOf crc body))

/-- What the host presents for an instruction: R44 for a command word, R47, R48 and R52 to R55 for a frame. -/
def encode : Instr → Presented
  | .crc8 chk a b => commandOf 0b000#3 chk a b
  | .crcchk chk a b => commandOf 0b001#3 chk a b
  | .encr chk a b => commandOf 0b010#3 chk a b
  | .encw chk a b => commandOf 0b011#3 chk a b
  | .decreq chk a b => commandOf 0b100#3 chk a b
  | .decrep chk a b => commandOf 0b101#3 chk a b
  | .reservedOp110 chk a b => commandOf 0b110#3 chk a b
  | .reservedOp111 chk a b => commandOf 0b111#3 chk a b
  | .frameReadRequest chk crc addrField dontCare addrLow =>
    transferOf .request chk crc (readBody addrField dontCare addrLow)
  | .frameWriteRequest chk crc addrField value => transferOf .request chk crc (writeBody addrField value)
  | .frameStatusReply16 chk crc status rwEcho data => transferOf .reply chk crc (reply16Body status rwEcho data)
  | .frameStatusReply22 chk crc data22 => transferOf .reply chk crc (reply22Body data22)
  | .frameCriticalFault chk crc ignored bitmap => transferOf .reply chk crc (criticalBody ignored bitmap)
  | .frameReservedReplyMode11 chk crc raw => transferOf .reply chk crc (reservedModeBody raw)

/-! ## The words of spec/opcode_table.json -/

/-- R43: the 4-bit command word `chk ++ op`. -/
def Command.word (c : Command) : BitVec 4 := c.chk ++ c.op

/-- The command record whose bits are `w` (log entry 12): the command word in bits 3:0 of the first byte, A in bits
39:8, B in bits 55:40. Wider numbers are truncated, as R22 says of a model with unbounded numbers. -/
def commandOfBits (w : Nat) : Command :=
  { op := BitVec.ofNat 3 w
    chk := BitVec.ofNat 1 (w / 2 ^ 3)
    a := BitVec.ofNat 32 (w / 2 ^ 8)
    b := BitVec.ofNat 16 (w / 2 ^ 40) }

/-- DESIGN CHOICE (log entry 11). A bare 32-bit word does not say which way it travels, and the table's request rows
and reply rows overlap. A word whose mode bits are not 00 is read as a reply; any other word as a request, but for
one that no encoder sends: R/W = 0 with bits 15:3 not zero (R47), which is read as a 16-bit reply. -/
def bareDirection (f : Frame) : Direction :=
  if frameMode f ≠ 0#2 then .reply
  else if frameRw f = 0#1 ∧ frameDontCare f ≠ 0#13 then .reply
  else .request

/-- A bare 32-bit frame word, as the four bytes of R29, unchecked (log entry 11). -/
def frameOfBits (w : Nat) : Presented :=
  .transfer (bareDirection (BitVec.ofNat 32 w)) 0#1 (bytesOfFrame (BitVec.ofNat 32 w))

/-- What the host presents for a word of the table: the frame rows have 32 bits, the command rows one byte, or the
7 bytes of a whole command record. -/
def presentedOfBits (nbits w : Nat) : Presented :=
  if nbits = 32 then frameOfBits w else .command (commandOfBits w)

/-- The instruction the decoder reads from the table's word `w` of `nbits` bits. -/
def decodeTableWord (nbits w : Nat) : Option Instr :=
  match decode (presentedOfBits nbits w) with
  | .ok i => some i
  | .error _ => none

/-- The bits of what is presented, numbered as the table numbers them; 0 where there is no frame. -/
def Presented.bits : Presented → Nat
  | .command c => c.word.toNat + c.a.toNat * 2 ^ 8 + c.b.toNat * 2 ^ 40
  | .transfer _ _ bytes => ((frameOfBytes bytes).getD 0#32).toNat

/-- The "mask" of the instruction's row in spec/opcode_table.json. -/
def Instr.rowMask : Instr → Nat
  | .crc8 .. => 0x7
  | .crcchk .. => 0x7
  | .encr .. => 0x7
  | .encw .. => 0x7
  | .decreq .. => 0x7
  | .decrep .. => 0x7
  | .reservedOp110 .. => 0x7
  | .reservedOp111 .. => 0x7
  | .frameReadRequest .. => 0x00010000
  | .frameWriteRequest .. => 0x00010000
  | .frameStatusReply16 .. => 0x00C00000
  | .frameStatusReply22 .. => 0x00C00000
  | .frameCriticalFault .. => 0x00C00000
  | .frameReservedReplyMode11 .. => 0x00C00000

/-- The "match" of the instruction's row in spec/opcode_table.json. -/
def Instr.rowMatch : Instr → Nat
  | .crc8 .. => 0x0
  | .crcchk .. => 0x1
  | .encr .. => 0x2
  | .encw .. => 0x3
  | .decreq .. => 0x4
  | .decrep .. => 0x5
  | .reservedOp110 .. => 0x6
  | .reservedOp111 .. => 0x7
  | .frameReadRequest .. => 0x00000000
  | .frameWriteRequest .. => 0x00010000
  | .frameStatusReply16 .. => 0x00000000
  | .frameStatusReply22 .. => 0x00400000
  | .frameCriticalFault .. => 0x00800000
  | .frameReservedReplyMode11 .. => 0x00C00000

end Sys2Proof
end

