-- ==== Sys2Proof/Config.lean ====
section
/-! DEFINITION. The implementation parameters of rule R8 (spec/00_scope.md), which rule R26 (spec/10_state.md) calls
configuration: fixed before the first command, constant for a run, changed by no command. -/

namespace Sys2Proof

/-- R79: the class of a non-zero device status. The document names the first four; the spec adds the last. -/
inductive StatusClass where
  | spiFrameError
  | deviceCrcError
  | writeToReadOnly
  | internalBusFault
  | unclassified
deriving DecidableEq, Repr, Inhabited

/-- R69: what ENCW does with a write address whose bits 2:0 are not zero. -/
inductive WriteAddrLowPolicy where
  /-- The bits are discarded. -/
  | drop
  /-- ENCW answers `Err(WriteAddrLow(addr))`. -/
  | reject
deriving DecidableEq, Repr

/-- R8: the parameters. STATUS_CLASS, a function on the 31 non-zero statuses, and FAULT_BIT_MEANING, a function on 8
bit numbers, are held as tables, so that a configuration is plain data (log entry 1). -/
structure Config where
  /-- CRC_POLY: the coefficients of x^7 down to x^0 (R61). -/
  crcPoly : Byte
  /-- CRC_INIT. -/
  crcInit : Byte
  /-- CRC_XOROUT. -/
  crcXorOut : Byte
  /-- WRITE_ADDR_LOW_POLICY (R69). -/
  writeAddrLowPolicy : WriteAddrLowPolicy
  /-- STATUS_CLASS (R79): entry `n` is the class of status `n + 1`. -/
  statusClass : Vector StatusClass 31
  /-- FAULT_BIT_MEANING (R55): entry `n` names bit `n` of a fault bitmap. No rule reads it (R8). -/
  faultBitMeaning : Vector String 8
deriving DecidableEq, Repr

/-- FREE VALUE (log entry 4): the spec leaves STATUS_CLASS OPEN, and a proof may assume nothing about it beyond its
type (R79). -/
opaque Config.openStatusClass : Vector StatusClass 31

/-- FREE VALUE (log entry 5): the spec leaves FAULT_BIT_MEANING OPEN (R8, R55). -/
opaque Config.openFaultBitMeaning : Vector String 8

end Sys2Proof
end

