-- ==== Sys2Proof/Machine/Outcome.lean ====
section
/-! DEFINITION. The outcome of a command (R24, R88): a tagged value, each constructor with only the fields that mean
something for it (R85). -/

namespace Sys2Proof.Machine

/-- R88: the error kinds. An error is an outcome value like any other; nothing traps (R92). -/
inductive CodecError where
  /-- Reserved op 110 or 111 (R57). -/
  | illegalOp (op : BitVec 3)
  /-- ENCW under Reject with `addr[2:0] ≠ 0` (R69). -/
  | writeAddrLow (addr : RegAddr)
  /-- DECREQ or DECREP with `chk = 1` and a wrong CRC (R70, R75). -/
  | crcMismatch (rx recomputed : Byte)
  /-- DECREP of reply mode 11 (R82). -/
  | reservedMode (raw : BitVec 22) (rx recomputed : Byte)
  /-- DECREP of a 16-bit reply whose status is not zero (R78). -/
  | deviceStatus (status : BitVec 5) (cls : StatusClass) (rwEcho : Bit) (data : BitVec 16) (rx recomputed : Byte)
deriving DecidableEq, Repr

/-- R88: the outcomes. -/
inductive CodecOutcome where
  /-- CRC8 (R65). -/
  | crc (c : Byte)
  /-- CRCCHK (R66). A mismatch is `ok = false`, not an error. -/
  | crcChk (ok : Bool) (rx recomputed : Byte)
  /-- ENCR and ENCW (R67, R68). -/
  | frame (f : Frame)
  /-- DECREQ (R70). -/
  | request (rw : Bit) (addrField : BitVec 7) (data : BitVec 16) (addr : RegAddr) (rx recomputed : Byte)
  /-- DECREP, reply mode 00 with status 0 (R78). -/
  | status16 (rwEcho : Bit) (data : BitVec 16) (rx recomputed : Byte)
  /-- DECREP, reply mode 01 (R80). -/
  | reply22 (data22 : BitVec 22) (rx recomputed : Byte)
  /-- DECREP, reply mode 10 (R81). -/
  | critical (bitmap : Byte) (rx recomputed : Byte)
  /-- An error. -/
  | err (e : CodecError)
deriving DecidableEq, Repr

end Sys2Proof.Machine
end

