-- ==== Sys2Proof/Machine/Assembler.lean ====
section
/-! DEFINITION. The assembler of rules R59 and R60 (spec/30_encoding.md): from a line, and the outcomes so far, to a
command. Its literals are unbounded numbers, so it is the interface that R22 speaks of (spec/10_state.md; D21 of
spec/92_eei_decisions.md): it truncates every operand to the field it stands in. -/

namespace Sys2Proof.Machine

/-- Why a line stands for no command. -/
inductive AsmReject where
  /-- `%k` where the k-th command returned no frame (spec/95_test_vectors.md, 3.2: "would not exist"). -/
  | noSuchFrame (k : Nat)
deriving DecidableEq, Repr

/-- The frame an outcome returned, if it returned one. -/
def CodecOutcome.frame? : CodecOutcome → Option Frame
  | .frame f => some f
  | _ => none

/-- R59: `%k` names the frame that the k-th command's outcome returned; the first command is `%1` (log entry 16). -/
def referencedFrame (observed : List CodecOutcome) (k : Nat) : Option Frame :=
  match k with
  | 0 => none
  | n + 1 => observed[n]?.bind CodecOutcome.frame?

/-- Whether an operand exists: a literal always does, `%k` where the k-th command returned a frame. -/
def operandExists (observed : List CodecOutcome) : AsmOperand → Bool
  | .lit _ => true
  | .ref k => (referencedFrame observed k).isSome

/-- R59, R22: the 32 bits of an operand: a literal, truncated, or a referenced frame. -/
def operandValue (observed : List CodecOutcome) : AsmOperand → Except AsmReject (BitVec 32)
  | .lit v => .ok (BitVec.ofNat 32 v)
  | .ref k =>
    match referencedFrame observed k with
    | some f => .ok f
    | none => .error (.noSuchFrame k)

/-- R59, R22, R45: operand A of an operation that reads its low `width` bits: an operand of that column is truncated to
`width` bits, and the bits of A that the operation ignores are zero. -/
def operandA (width : Nat) (v : BitVec 32) : BitVec 32 := (v.extractLsb' 0 width).setWidth 32

/-- R59, R22: operand B, the 16-bit value of ENCW. -/
def operandB (v : BitVec 32) : BitVec 16 := v.extractLsb' 0 16

/-- A line with one operand, whose operation reads the low `width` bits of A; the ignored B is zero (R59, R45). -/
def lineCommand (op : BitVec 3) (chk : Bit) (width : Nat) (observed : List CodecOutcome) (x : AsmOperand) :
    Except AsmReject Command :=
  match operandValue observed x with
  | .ok v => .ok { op := op, chk := chk, a := operandA width v, b := 0#16 }
  | .error r => .error r

/-- The line of ENCW: an address of 10 bits in A and a value of 16 bits in B (R59). Where neither operand exists, the
first is the one named (log entry 18). -/
def encwCommand (observed : List CodecOutcome) (addr val : AsmOperand) : Except AsmReject Command :=
  match operandValue observed addr, operandValue observed val with
  | .ok a, .ok v => .ok { op := 0b011#3, chk := 0#1, a := operandA 10 a, b := operandB v }
  | .error r, _ => .error r
  | _, .error r => .error r

/-- R59, R60: the command a line stands for, given the outcomes of the commands before it. -/
def assemble (observed : List CodecOutcome) : AsmLine → Except AsmReject Command
  | .crc8 m => lineCommand 0b000#3 0#1 24 observed m
  | .crcchk f => lineCommand 0b001#3 0#1 32 observed f
  | .encr addr => lineCommand 0b010#3 0#1 10 observed addr
  | .encw addr val => encwCommand observed addr val
  | .decreq f => lineCommand 0b100#3 1#1 32 observed f
  | .decreqNc f => lineCommand 0b100#3 0#1 32 observed f
  | .decrep f => lineCommand 0b101#3 1#1 32 observed f
  | .decrepNc f => lineCommand 0b101#3 0#1 32 observed f
  | .decreqC f => lineCommand 0b100#3 1#1 32 observed f
  | .decrepC f => lineCommand 0b101#3 1#1 32 observed f

end Sys2Proof.Machine
end

