-- ==== Sys2Proof/Machine/Defaults.lean ====
section
/-! DEFINITION. The default configuration of rule R8 (spec/00_scope.md). -/

namespace Sys2Proof.Machine

/-- R8: the spec's defaults, CRC-8/SAE-J1850 (PRESUMED, log entry 2) and the Drop policy (DESIGN CHOICE of the spec,
log entry 3). The two OPEN parameters stay free values (log entries 4 and 5). -/
def defaultConfig : Config where
  crcPoly := 0x1D#8
  crcInit := 0xFF#8
  crcXorOut := 0xFF#8
  writeAddrLowPolicy := .drop
  statusClass := Config.openStatusClass
  faultBitMeaning := Config.openFaultBitMeaning

end Sys2Proof.Machine
end

