-- ==== Sys2Proof/Machine/State.lean ====
section
/-! DEFINITION. The state, the reasons a step can stop, and the state after reset. The block holds no architectural
state (R14): what stands here is its outcome output, its configuration, and the host's side of a run. -/

namespace Sys2Proof.Machine

/-- The closed system of the block and its host. Nothing the block computes reads `pending`, `output` or `observed`
(R14). -/
structure State where
  /-- R26: fixed for the run; no step changes it (log entry 1). -/
  cfg : Config
  /-- R13, R110: what the host has still to do, next action first (log entry 6). -/
  pending : List HostAction
  /-- R24, R25: the outcome output; `none` is the spec's own "no value" before the first command completes. -/
  output : Option CodecOutcome
  /-- R110: the observation of the run, one outcome for each command, oldest first. -/
  observed : List CodecOutcome
deriving DecidableEq, Repr

/-- Why the machine faults. -/
inductive Fault where
  /-- R25: the host read the outcome output before any command had completed. Raised by `readOutput`. Safe: hardware
  would show some value (spec/92_eei_decisions.md D22). -/
  | outcomeUnset
deriving DecidableEq, Repr

/-- Why the machine refuses. -/
inductive Refusal where
  /-- The instruction has no meaning in the model yet. Raised by no arm of this model. -/
  | notModelled (mnemonic : String)
  /-- R110: the run has ended; the host has nothing more to present, so there is no command to answer. Raised by
  `step`. Safe (log entry 7). -/
  | noHostAction
  /-- R33: a transfer of `n` bytes, `n ≠ 4`, is not a frame. Raised where a transfer is decoded. Safe (entry 14). -/
  | notAFrame (n : Nat)
  /-- An assembler line with an operand `%k` where the k-th command returned no frame: the operand "would not exist: a
  host must not run" the line then (spec/95_test_vectors.md, 3.2). Raised where a line is assembled. Safe (log entry
  18). -/
  | noSuchFrame (k : Nat)
  /-- R104: a command presented during reset is not defined and is not modelled. Raised where one is presented. Safe
  (log entry 9). -/
  | commandDuringReset
deriving DecidableEq, Repr

/-- R27, R104, R105: the block after reset. The configuration is not touched by reset; it stands at R8's defaults. No
outcome exists yet (R25), and the host has presented nothing. -/
def State.reset : State where
  cfg := defaultConfig
  pending := []
  output := none
  observed := []

end Sys2Proof.Machine
end

