-- ==== Sys2Proof/Machine/Ops.lean ====
section
/-! DEFINITION. The shared operations: the CRC (R61, R62), its check (R70, R75), the decoded fields of requests and replies
(R70, R74), and the one way an outcome is delivered (R34, R92). -/

namespace Sys2Proof.Machine

/-! ## The CRC -/

/-- R61: one round of the loop, with message bit `m`. -/
def crcRound (poly c : Byte) (m : Bool) : Byte :=
  if c.getLsbD 7 ^^ m then (c <<< 1) ^^^ poly else c <<< 1

/-- R61: the rounds for bits `i - 1` down to 0 of a message, from register `c`. -/
def crcRounds {n : Nat} (poly : Byte) (msg : BitVec n) : Nat → Byte → Byte
  | 0, c => c
  | i + 1, c => crcRounds poly msg i (crcRound poly c (msg.getLsbD i))

/-- R61: `CRC8(m)`, most significant bit first, without reflection. -/
def crc8 (cfg : Config) (m : Body) : Byte := crcRounds cfg.crcPoly m 24 cfg.crcInit ^^^ cfg.crcXorOut

/-- R62: entry `x` of the table, the register after eight rounds from `x` with message bits 0. -/
def crcTable (poly x : Byte) : Byte := crcRounds poly 0#8 8 x

/-- R62: the table-driven form. -/
def crc8ByTable (cfg : Config) (m : Body) : Byte :=
  [m.extractLsb' 16 8, m.extractLsb' 8 8, m.extractLsb' 0 8].foldl
    (fun c b => crcTable cfg.crcPoly (c ^^^ b)) cfg.crcInit ^^^ cfg.crcXorOut

/-- The frame an encoder sends for a body: its CRC, then the body (R67, R68). -/
def sealFrame (cfg : Config) (body : Body) : Frame := frameOf (crc8 cfg body) body

/-- R70, R75: the CRC stage of both decoders. With `chk = 1` a mismatch ends the decode; otherwise it goes on with the
recomputed CRC, whatever the received one (R84). -/
def crcStage (cfg : Config) (chk : Bit) (rx : Byte) (body : Body) (decoded : Byte → CodecOutcome) : CodecOutcome :=
  if chk = 1#1 ∧ rx ≠ crc8 cfg body then .err (.crcMismatch rx (crc8 cfg body)) else decoded (crc8 cfg body)

/-! ## Decoded frames -/

/-- R79: the class of a non-zero status. (R8 gives STATUS_CLASS no value at 0, and R78 never asks for one.) -/
def classOf (cfg : Config) (status : BitVec 5) : StatusClass :=
  cfg.statusClass[status.toNat - 1]'(by have := status.isLt; omega)

/-- R70: the outcome of DECREQ for a request frame. -/
def requestOutcome (cfg : Config) (chk : Bit) (f : Frame) : CodecOutcome :=
  crcStage cfg chk (frameCrc f) (frameBody f) fun recomputed =>
    .request (frameRw f) (frameAddrField f) (frameData f) (requestAddr f) (frameCrc f) recomputed

/-- R78: a 16-bit reply whose fields are known. Status 0 is no error; any other status is a device error. -/
def status16Outcome (cfg : Config) (status : BitVec 5) (rwEcho : Bit) (data : BitVec 16) (rx recomputed : Byte) :
    CodecOutcome :=
  if status ≠ 0#5 then .err (.deviceStatus status (classOf cfg status) rwEcho data rx recomputed)
  else .status16 rwEcho data rx recomputed

/-- R76: the mode stage of DECREP. -/
def replyOfMode (cfg : Config) (f : Frame) (recomputed : Byte) : CodecOutcome :=
  match (frameMode f).toNat with
  | 0 => status16Outcome cfg (frameStatus f) (frameRw f) (frameData f) (frameCrc f) recomputed
  | 1 => .reply22 (frameData22 f) (frameCrc f) recomputed
  | 2 => .critical (frameBitmap f) (frameCrc f) recomputed
  | _ => .err (.reservedMode (frameData22 f) (frameCrc f) recomputed)

/-- R74: the outcome of DECREP for a reply frame. -/
def replyOutcome (cfg : Config) (chk : Bit) (f : Frame) : CodecOutcome :=
  crcStage cfg chk (frameCrc f) (frameBody f) (replyOfMode cfg f)

/-! ## The host's side of a step -/

/-- R24, R110: an outcome appears at the output and in the observation. Nothing else changes (R34). -/
def State.deliver (s : State) (o : CodecOutcome) : State :=
  { s with output := some o, observed := s.observed ++ [o] }

/-- What the host has still to do. -/
def State.withPending (s : State) (acts : List HostAction) : State := { s with pending := acts }

/-- R34, R92: a command completes in its step, with a success or an error alike. There is no other way an error is
taken: it saves nothing, changes no mode and transfers no control. -/
def complete (o : CodecOutcome) (s : State) : Host.Outcome State Fault Refusal := .next (s.deliver o)

/-- R25: the host reads the outcome output. -/
def readOutput (s : State) : Except Fault CodecOutcome :=
  match s.output with
  | some o => .ok o
  | none => .error .outcomeUnset

end Sys2Proof.Machine
end

