-- ==== Sys2Proof/Machine/Crc.lean ====
section
/-! DEFINITION. The CRC family: CRC8 and CRCCHK (spec/40_crc.md). -/

namespace Sys2Proof.Machine

/-- R65: `return Crc(CRC8(A[23:0]))`. `chk`, B and A[31:24] are ignored (R45). -/
def execCrc8 (_chk : Bit) (a : BitVec 32) (_b : BitVec 16) (s : State) : Host.Outcome State Fault Refusal :=
  complete (.crc (crc8 s.cfg (operandMessage a))) s

/-- R66: the received CRC, the recomputed one, and whether they agree. `chk` and B are ignored (R45). -/
def execCrcchk (_chk : Bit) (a : BitVec 32) (_b : BitVec 16) (s : State) : Host.Outcome State Fault Refusal :=
  complete (.crcChk (frameCrc a == crc8 s.cfg (frameBody a)) (frameCrc a) (crc8 s.cfg (frameBody a))) s

end Sys2Proof.Machine
end

