-- ==== Sys2Proof/Machine/Illegal.lean ====
section
/-! DEFINITION. The reserved operation selectors (R57): they answer an error outcome and read no operand. -/

namespace Sys2Proof.Machine

/-- R57: op 110. -/
def execReservedOp110 (_chk : Bit) (_a : BitVec 32) (_b : BitVec 16) (s : State) : Host.Outcome State Fault Refusal :=
  complete (.err (.illegalOp 0b110#3)) s

/-- R57: op 111. -/
def execReservedOp111 (_chk : Bit) (_a : BitVec 32) (_b : BitVec 16) (s : State) : Host.Outcome State Fault Refusal :=
  complete (.err (.illegalOp 0b111#3)) s

end Sys2Proof.Machine
end

