-- ==== Sys2Proof/Machine/Reply.lean ====
section
/-! DEFINITION. The reply family (spec/42_reply_decode.md): DECREP, and the four reply-frame layouts. -/

namespace Sys2Proof.Machine

/-- R74: reply frame A by its reply mode, its CRC checked when `chk = 1`. B is ignored (R45). -/
def execDecrep (chk : Bit) (a : BitVec 32) (_b : BitVec 16) (s : State) : Host.Outcome State Fault Refusal :=
  complete (replyOutcome s.cfg chk a) s

/-- R53, R77, R78: a 16-bit reply brought to the reply decoder. -/
def execFrameStatusReply16 (chk : Bit) (crc : Byte) (status : BitVec 5) (rwEcho : Bit) (data : BitVec 16) (s : State) :
    Host.Outcome State Fault Refusal :=
  complete (crcStage s.cfg chk crc (reply16Body status rwEcho data) (status16Outcome s.cfg status rwEcho data crc)) s

/-- R54, R80: a 22-bit reply brought to the reply decoder. -/
def execFrameStatusReply22 (chk : Bit) (crc : Byte) (data22 : BitVec 22) (s : State) :
    Host.Outcome State Fault Refusal :=
  complete (crcStage s.cfg chk crc (reply22Body data22) (.reply22 data22 crc)) s

/-- R55, R81: a critical-fault reply brought to the reply decoder: a success that carries the bitmap. -/
def execFrameCriticalFault (chk : Bit) (crc : Byte) (ignored : BitVec 14) (bitmap : Byte) (s : State) :
    Host.Outcome State Fault Refusal :=
  complete (crcStage s.cfg chk crc (criticalBody ignored bitmap) (.critical bitmap crc)) s

/-- R52, R82: a reply of the reserved mode brought to the reply decoder: an error that carries the raw bits. -/
def execFrameReservedReplyMode11 (chk : Bit) (crc : Byte) (raw : BitVec 22) (s : State) :
    Host.Outcome State Fault Refusal :=
  complete (crcStage s.cfg chk crc (reservedModeBody raw) fun recomputed => .err (.reservedMode raw crc recomputed)) s

end Sys2Proof.Machine
end

