-- ==== Sys2Proof/Machine/Request.lean ====
section
/-! DEFINITION. The request family (spec/41_request_codec.md): ENCR, ENCW, DECREQ, and the two request-frame layouts. -/

namespace Sys2Proof.Machine

/-- R67: the read request for A[9:0]. `chk`, B and A[31:10] are ignored (R45). -/
def execEncr (_chk : Bit) (a : BitVec 32) (_b : BitVec 16) (s : State) : Host.Outcome State Fault Refusal :=
  complete (.frame (sealFrame s.cfg (readBody (addrUpper (operandAddr a)) 0#13 (addrLower (operandAddr a))))) s

/-- R68, R69: the write request for A[9:0] and B; under Reject, no frame where `addr[2:0]` is not zero. `chk` and
A[31:10] are ignored (R45). -/
def execEncw (_chk : Bit) (a : BitVec 32) (b : BitVec 16) (s : State) : Host.Outcome State Fault Refusal :=
  if s.cfg.writeAddrLowPolicy = .reject ∧ addrLower (operandAddr a) ≠ 0#3 then
    complete (.err (.writeAddrLow (operandAddr a))) s
  else
    complete (.frame (sealFrame s.cfg (writeBody (addrUpper (operandAddr a)) b))) s

/-- R70: the fields of request frame A, its CRC checked when `chk = 1`. B is ignored (R45). -/
def execDecreq (chk : Bit) (a : BitVec 32) (_b : BitVec 16) (s : State) : Host.Outcome State Fault Refusal :=
  complete (requestOutcome s.cfg chk a) s

/-- R47, R56, R71: a read request brought to the request decoder. The don't-care bits reach `data` and the CRC, not
the address. -/
def execFrameReadRequest (chk : Bit) (crc : Byte) (addrField : BitVec 7) (dontCare : BitVec 13) (addrLow : BitVec 3)
    (s : State) : Host.Outcome State Fault Refusal :=
  complete
    (crcStage s.cfg chk crc (readBody addrField dontCare addrLow) fun recomputed =>
      .request 0#1 addrField (dontCare ++ addrLow) (addrField ++ addrLow) crc recomputed) s

/-- R48, R71: a write request brought to the request decoder. The low address bits are reported as zero. -/
def execFrameWriteRequest (chk : Bit) (crc : Byte) (addrField : BitVec 7) (value : BitVec 16) (s : State) :
    Host.Outcome State Fault Refusal :=
  complete
    (crcStage s.cfg chk crc (writeBody addrField value) fun recomputed =>
      .request 1#1 addrField value (addrField ++ 0#3) crc recomputed) s

end Sys2Proof.Machine
end

