-- ==== Sys2Proof/Machine/Dispatch.lean ====
section
/-! DEFINITION. One arm for each constructor of `Instr`. -/

namespace Sys2Proof.Machine

def exec (i : Instr) (s : State) : Host.Outcome State Fault Refusal :=
  match i with
  | .crc8 chk a b => Sys2Proof.Machine.execCrc8 chk a b s
  | .crcchk chk a b => Sys2Proof.Machine.execCrcchk chk a b s
  | .encr chk a b => Sys2Proof.Machine.execEncr chk a b s
  | .encw chk a b => Sys2Proof.Machine.execEncw chk a b s
  | .decreq chk a b => Sys2Proof.Machine.execDecreq chk a b s
  | .decrep chk a b => Sys2Proof.Machine.execDecrep chk a b s
  | .reservedOp110 chk a b => Sys2Proof.Machine.execReservedOp110 chk a b s
  | .reservedOp111 chk a b => Sys2Proof.Machine.execReservedOp111 chk a b s
  | .frameReadRequest chk crc addrField dontCare addrLow => Sys2Proof.Machine.execFrameReadRequest chk crc addrField dontCare addrLow s
  | .frameWriteRequest chk crc addrField value => Sys2Proof.Machine.execFrameWriteRequest chk crc addrField value s
  | .frameStatusReply16 chk crc status rwEcho data => Sys2Proof.Machine.execFrameStatusReply16 chk crc status rwEcho data s
  | .frameStatusReply22 chk crc data22 => Sys2Proof.Machine.execFrameStatusReply22 chk crc data22 s
  | .frameCriticalFault chk crc ignored bitmap => Sys2Proof.Machine.execFrameCriticalFault chk crc ignored bitmap s
  | .frameReservedReplyMode11 chk crc raw => Sys2Proof.Machine.execFrameReservedReplyMode11 chk crc raw s

end Sys2Proof.Machine
end

