-- ==== Sys2Proof/Machine/Fetch.lean ====
section
/-! DEFINITION. What one action of the host does (R13). The block fetches nothing (R16, R40): a command arrives because
the host presents it. -/

namespace Sys2Proof.Machine

/-- What is presented is decoded and executed. A transfer that is no frame is refused (R33). -/
def present (p : Presented) (s : State) : Host.Outcome State Fault Refusal :=
  match decode p with
  | .ok i => exec i s
  | .error (.notFourBytes n) => .refused (.notAFrame n)

/-- A line is assembled against the outcomes so far and its command executed (R59). A line with an operand that does not
exist is refused: the host must not run it (spec/95_test_vectors.md, 3.2; log entry 18). -/
def presentLine (l : AsmLine) (s : State) : Host.Outcome State Fault Refusal :=
  match assemble s.observed l with
  | .ok c => exec (decodeCommand c) s
  | .error (.noSuchFrame k) => .refused (.noSuchFrame k)

/-- One action of the host. Reading the output changes nothing and faults while there is no value (R25). A reset
between two commands changes nothing; a command during reset is not modelled (R104). -/
def runAction (act : HostAction) (s : State) : Host.Outcome State Fault Refusal :=
  match act with
  | .present p => present p s
  | .line l => presentLine l s
  | .readOutput =>
    match readOutput s with
    | .ok _ => .next s
    | .error r => .fault r
  | .pulseReset => .next s
  | .presentInReset _ => .refused .commandDuringReset

end Sys2Proof.Machine
end

