-- ==== Sys2Proof/Machine/Step.lean ====
section
/-! DEFINITION. One step of the run: the host's next action. -/

namespace Sys2Proof.Machine

/-- One step (R107, R109): the host's next action is taken from the list and carried out. The run has ended when there
is none (R110, log entry 7). -/
def step (s : State) : Host.Outcome State Fault Refusal :=
  match s.pending with
  | [] => .refused .noHostAction
  | act :: rest => runAction act (s.withPending rest)

/-- The host presents the table's word next (log entry 6). -/
def State.withFetchWord (s : State) (nbits w : Nat) : State :=
  s.withPending (.present (presentedOfBits nbits w) :: s.pending)

end Sys2Proof.Machine
end

