-- ==== Sys2Proof/Machine/Flags.lean ====
section
/-! DEFINITION. The block has no flags and no condition codes (R18). The one condition a command reports is the result
code of its outcome (R88). -/

namespace Sys2Proof.Machine

/-- R88: the result code of an error. -/
def CodecError.code : CodecError → BitVec 3
  | .illegalOp _ => 1
  | .writeAddrLow _ => 2
  | .crcMismatch _ _ => 3
  | .reservedMode _ _ _ => 4
  | .deviceStatus _ _ _ _ _ _ => 5

/-- R88: the result code `res` of an outcome: 0 for a success, the error's code otherwise. -/
def CodecOutcome.res : CodecOutcome → BitVec 3
  | .crc _ => 0
  | .crcChk _ _ _ => 0
  | .frame _ => 0
  | .request _ _ _ _ _ _ => 0
  | .status16 _ _ _ _ => 0
  | .reply22 _ _ _ => 0
  | .critical _ _ _ => 0
  | .err e => e.code

end Sys2Proof.Machine
end

