-- ==== Sys2Proof/WellFormed.lean ====
section
/-! DEFINITION. Checks on what the host presents. `Instr` and `Command` need none: every field has its exact width, so
an out-of-range operand cannot be written (R22). An assembler line needs none either: its literals are truncated to the
field they stand in (R22), and whether a `%k` names a frame is a matter of the run (`operandExists`). What can be
ill-formed is a transfer that is not four bytes long (R33). -/

namespace Sys2Proof

/-- R33: a transfer of fewer or more than 4 bytes is not a frame. A command record is always well formed (R22). -/
def Presented.wf : Presented → Bool
  | .command _ => true
  | .transfer _ _ bytes => bytes.length == 4

end Sys2Proof
end

