-- ==== Sys2Proof/Safety.lean ====
section
/-! DEFINITION. What claims about runs are stated in: what the host may do next, what an outcome must satisfy, and the
invariant of a run. -/

namespace Sys2Proof.Machine

/-- What the host may do in a state: present a command or a whole frame (R33), a line whose operands exist (R59, and
95_test_vectors.md 3.2), read an output that has a value (R25), assert reset between commands but present nothing during
it (R104). -/
def actionAllowed (s : State) : HostAction → Bool
  | .present p => p.wf
  | .line l => l.operands.all (operandExists s.observed)
  | .readOutput => s.output.isSome
  | .pulseReset => true
  | .presentInReset _ => false

/-- What every outcome satisfies by the rules of spec/40_crc.md, 41_request_codec.md and 42_reply_decode.md: a sealed
frame carries its own CRC, a recomputed CRC is that of the fields reported beside it, an error has its cause. -/
def CodecOutcome.Consistent (cfg : Config) : CodecOutcome → Prop
  | .crc _ => True
  | .crcChk ok rx recomputed => ok = (rx == recomputed)
  | .frame f => frameCrc f = crc8 cfg (frameBody f) ∧ (frameRw f = 0#1 → frameDontCare f = 0#13)
  | .request rw addrField data addr _ recomputed =>
    addr = addrField ++ (if rw = 0#1 then data.extractLsb' 0 3 else 0#3) ∧
      recomputed = crc8 cfg (addrField ++ rw ++ data)
  | .status16 rwEcho data _ recomputed => recomputed = crc8 cfg (reply16Body 0#5 rwEcho data)
  | .reply22 data22 _ recomputed => recomputed = crc8 cfg (reply22Body data22)
  | .critical bitmap _ recomputed => ∃ ignored, recomputed = crc8 cfg (criticalBody ignored bitmap)
  | .err (.illegalOp op) => op = 0b110#3 ∨ op = 0b111#3
  | .err (.writeAddrLow addr) => cfg.writeAddrLowPolicy = .reject ∧ addrLower addr ≠ 0#3
  | .err (.crcMismatch rx recomputed) => rx ≠ recomputed
  | .err (.reservedMode raw _ recomputed) => recomputed = crc8 cfg (reservedModeBody raw)
  | .err (.deviceStatus status cls rwEcho data _ recomputed) =>
    status ≠ 0#5 ∧ cls = classOf cfg status ∧ recomputed = crc8 cfg (reply16Body status rwEcho data)

/-- The invariant of a run: the output shows the last outcome observed, and no value before the first (R25, R110);
every outcome observed is one the rules allow under the configuration of the run (R26). -/
structure State.Inv (s : State) : Prop where
  output_is_last : s.output = s.observed.getLast?
  observed_consistent : ∀ o ∈ s.observed, o.Consistent s.cfg

/-- R64: the error patterns the default CRC detects: one bit, two bits, or a burst of no more than 8 positions. -/
def ErrorPattern (e : Frame) : Prop :=
  (∃ i < 32, e = 1#32 <<< i) ∨
  (∃ i < 32, ∃ j < 32, i ≠ j ∧ e = (1#32 <<< i) ^^^ (1#32 <<< j)) ∨
  (∃ pos < 32, ∃ burst : Byte, e ≠ 0#32 ∧ e = burst.setWidth 32 <<< pos)

end Sys2Proof.Machine
end

