-- ==== Sys2Proof/Certificates/Slice0/Obligations.lean ====
section
/-! DEFINITION. The statements for the provers. `f.extractLsb' lo len` is the field `f[lo+len-1:lo]` of R9. A next state
written as a record update of `s` says the frame as well: every field it does not name is unchanged. -/

section

open Sys2Proof Sys2Proof.Machine

/-! ## A step and the instruction it runs -/

/-- When what the host presents next decodes to `i`, the step is `exec i`, with the action taken from the list. -/
def Obligations.StepRunsThePresentedInstruction : Prop :=
  ∀ (s : State) (p : Presented) (rest : List HostAction) (i : Instr),
    s.pending = .present p :: rest → decode p = .ok i → step s = exec i { s with pending := rest }

/-- R59: the step of an assembler line is `exec` of the command the line stands for. -/
def Obligations.StepRunsTheAssembledLine : Prop :=
  ∀ (s : State) (l : AsmLine) (rest : List HostAction) (c : Command),
    s.pending = .line l :: rest → assemble s.observed l = .ok c →
      step s = exec (decodeCommand c) { s with pending := rest }

/-- The model's own convention (log entries 6, 11 and 12): a word of the opcode table put where the step takes its next
instruction is run as what the decoder reads from it. -/
def Obligations.TableWordIsRunAsDecoded : Prop :=
  ∀ (s : State) (nbits w : Nat) (i : Instr), decodeTableWord nbits w = some i →
    step (s.withFetchWord nbits w) = exec i s

/-- The model's choice (log entry 7): with nothing left to present, the run has ended and the step says so. -/
def Obligations.EndOfRunIsRefusedByName : Prop :=
  ∀ s : State, s.pending = [] → step s = .refused .noHostAction

/-- R25: no value before the first command, and a read while there is none faults. -/
def Obligations.ReadingTheOutputBeforeACommandFaults : Prop :=
  State.reset.output = none ∧
  ∀ (s : State) (rest : List HostAction), s.pending = .readOutput :: rest → s.output = none →
    readOutput s = .error .outcomeUnset ∧ step s = .fault .outcomeUnset

/-- The model's choice (log entry 8): a read of an output that has a value gives that value and changes nothing, so it
can be read again. -/
def Obligations.ReadingTheOutputChangesNothing : Prop :=
  ∀ (s : State) (rest : List HostAction) (o : CodecOutcome), s.pending = .readOutput :: rest → s.output = some o →
    readOutput s = .ok o ∧ step s = .next { s with pending := rest }

/-- R8, R27: what stands after reset. The four values of the configuration are the spec's defaults (log entries 2 and
3); the empty list of actions is the model's choice (log entry 6). -/
def Obligations.ResetLeavesNoOutcomeAndTheDefaults : Prop :=
  State.reset.output = none ∧ State.reset.observed = [] ∧ State.reset.pending = [] ∧
  State.reset.cfg.crcPoly = 0x1D#8 ∧ State.reset.cfg.crcInit = 0xFF#8 ∧ State.reset.cfg.crcXorOut = 0xFF#8 ∧
  State.reset.cfg.writeAddrLowPolicy = .drop

/-- R104: asserting reset anywhere between the host's actions changes no later outcome: the rest of the run goes as it
would have gone. -/
def Obligations.ResetPulseChangesNoLaterOutcome : Prop :=
  ∀ (s : State) (before after : List HostAction) (n : Nat),
    core.run (before.length + 1 + n) { s with pending := before ++ .pulseReset :: after } =
      core.run (before.length + n) { s with pending := before ++ after }

/-- R104; the model's choice, as spec/93_implementation_defined.md row 12 says (log entry 9): a command presented
during reset is refused by name. -/
def Obligations.CommandDuringResetIsRefused : Prop :=
  ∀ (s : State) (p : Presented) (rest : List HostAction), s.pending = .presentInReset p :: rest →
    step s = .refused .commandDuringReset

/-- A step completes exactly where the host's next action is one the spec lets it do. That the others stop is the
model's choice (log entries 7, 9, 14 and 18), but for R25's fault. -/
def Obligations.StepCompletesExactlyOnAllowedActions : Prop :=
  ∀ s : State, (∃ t, step s = .next t) ↔ ∃ act rest, s.pending = act :: rest ∧ actionAllowed s act = true

/-- R92, R25: nothing faults but a read of an output that has no value. -/
def Obligations.OnlyReadingAnUnsetOutputFaults : Prop :=
  ∀ (s : State) (r : Fault),
    step s = .fault r ↔ r = .outcomeUnset ∧ s.output = none ∧ ∃ rest, s.pending = .readOutput :: rest

/-! ## Encodings -/

/-- Words written out from the tables of spec/30_encoding.md and spec/95_test_vectors.md. How the command word lies in
a byte and a frame in a transfer is the model's choice (log entries 10 and 12). -/
def Obligations.SpecWordsDecode : Prop :=
  decodeTableWord 8 0b0000 = some (.crc8 0#1 0#32 0#16) ∧
  decodeTableWord 8 0b0011 = some (.encw 0#1 0#32 0#16) ∧
  decodeTableWord 8 0b1100 = some (.decreq 1#1 0#32 0#16) ∧
  decodeTableWord 8 0b1111 = some (.reservedOp111 1#1 0#32 0#16) ∧
  decode (.transfer .request 1#1 [0xBA#8, 0x48#8, 0x00#8, 0x03#8]) =
    .ok (.frameReadRequest 1#1 0xBA#8 0x24#7 0#13 3#3) ∧
  decode (.transfer .request 1#1 [0x2B#8, 0x49#8, 0x5F#8, 0xFF#8]) =
    .ok (.frameWriteRequest 1#1 0x2B#8 0x24#7 0x5FFF#16) ∧
  decode (.transfer .reply 1#1 [0x4B#8, 0x09#8, 0x5F#8, 0xFF#8]) =
    .ok (.frameStatusReply16 1#1 0x4B#8 0b00100#5 1#1 0x5FFF#16) ∧
  decode (.transfer .reply 0#1 [0x8F#8, 0x6A#8, 0xBC#8, 0xDE#8]) = .ok (.frameStatusReply22 0#1 0x8F#8 0x2ABCDE#22)

/-- Decode and encode agree: no bit of an encoding is dropped, for every instruction and every operand. (A frame
layout is encoded as a transfer by log entry 10.) -/
def Obligations.DecodeOfEncodeIsTheInstruction : Prop :=
  ∀ i : Instr, decode (encode i) = .ok i

/-- Each presented item has one meaning: it is what the encoder writes for the instruction it decodes to. -/
def Obligations.EncodeOfDecodeIsWhatWasPresented : Prop :=
  ∀ (p : Presented) (i : Instr), decode p = .ok i → encode i = p

/-- R33, R58: every command record decodes, and of transfers exactly those of four bytes. (That the others are
rejected by name is log entry 14.) -/
def Obligations.DecoderAcceptsExactlyCommandsAndFrames : Prop :=
  ∀ p : Presented, (∃ i, decode p = .ok i) ↔ p.wf = true

/-- R29, R30: four bytes, most significant first, in both directions. -/
def Obligations.FramesTravelMostSignificantByteFirst : Prop :=
  (∀ f : Frame, bytesOfFrame f =
      [f.extractLsb' 24 8, f.extractLsb' 16 8, f.extractLsb' 8 8, f.extractLsb' 0 8] ∧
    frameOfBytes (bytesOfFrame f) = some f) ∧
  ∀ rx0 rx1 rx2 rx3 : Byte, frameOfBytes [rx0, rx1, rx2, rx3] = some (rx0 ++ rx1 ++ rx2 ++ rx3) ∧
    bytesOfFrame (rx0 ++ rx1 ++ rx2 ++ rx3) = [rx0, rx1, rx2, rx3]

/-- R59, R60: the table of assembler lines, for a literal of any size and for a reference to a frame in any column. Each
operand is truncated to the width of its column, as R22 says of an interface with unbounded numbers, and the bits the
operation ignores are zero. (`%1` is the first outcome, and a reference may stand in any column: log entry 16.) -/
def Obligations.AssemblerLinesStandForTheirCommands : Prop :=
  (∀ (obs : List CodecOutcome) (m f addr val : Nat),
    assemble obs (.crc8 (.lit m)) =
      .ok { op := 0b000#3, chk := 0#1, a := 0#8 ++ BitVec.ofNat 24 m, b := 0#16 } ∧
    assemble obs (.crcchk (.lit f)) = .ok { op := 0b001#3, chk := 0#1, a := BitVec.ofNat 32 f, b := 0#16 } ∧
    assemble obs (.encr (.lit addr)) =
      .ok { op := 0b010#3, chk := 0#1, a := 0#22 ++ BitVec.ofNat 10 addr, b := 0#16 } ∧
    assemble obs (.encw (.lit addr) (.lit val)) =
      .ok { op := 0b011#3, chk := 0#1, a := 0#22 ++ BitVec.ofNat 10 addr, b := BitVec.ofNat 16 val } ∧
    assemble obs (.decreq (.lit f)) = .ok { op := 0b100#3, chk := 1#1, a := BitVec.ofNat 32 f, b := 0#16 } ∧
    assemble obs (.decreqNc (.lit f)) = .ok { op := 0b100#3, chk := 0#1, a := BitVec.ofNat 32 f, b := 0#16 } ∧
    assemble obs (.decrep (.lit f)) = .ok { op := 0b101#3, chk := 1#1, a := BitVec.ofNat 32 f, b := 0#16 } ∧
    assemble obs (.decrepNc (.lit f)) = .ok { op := 0b101#3, chk := 0#1, a := BitVec.ofNat 32 f, b := 0#16 }) ∧
  (∀ (obs : List CodecOutcome) (k : Nat) (f : Frame), obs[k]? = some (.frame f) →
    assemble obs (.crc8 (.ref (k + 1))) =
      .ok { op := 0b000#3, chk := 0#1, a := 0#8 ++ f.extractLsb' 0 24, b := 0#16 } ∧
    assemble obs (.crcchk (.ref (k + 1))) = .ok { op := 0b001#3, chk := 0#1, a := f, b := 0#16 } ∧
    assemble obs (.encr (.ref (k + 1))) =
      .ok { op := 0b010#3, chk := 0#1, a := 0#22 ++ f.extractLsb' 0 10, b := 0#16 } ∧
    (∀ val : Nat, assemble obs (.encw (.ref (k + 1)) (.lit val)) =
      .ok { op := 0b011#3, chk := 0#1, a := 0#22 ++ f.extractLsb' 0 10, b := BitVec.ofNat 16 val }) ∧
    (∀ addr : Nat, assemble obs (.encw (.lit addr) (.ref (k + 1))) =
      .ok { op := 0b011#3, chk := 0#1, a := 0#22 ++ BitVec.ofNat 10 addr, b := f.extractLsb' 0 16 }) ∧
    (∀ (j : Nat) (g : Frame), obs[j]? = some (.frame g) → assemble obs (.encw (.ref (k + 1)) (.ref (j + 1))) =
      .ok { op := 0b011#3, chk := 0#1, a := 0#22 ++ f.extractLsb' 0 10, b := g.extractLsb' 0 16 }) ∧
    assemble obs (.decreq (.ref (k + 1))) = .ok { op := 0b100#3, chk := 1#1, a := f, b := 0#16 } ∧
    assemble obs (.decreqNc (.ref (k + 1))) = .ok { op := 0b100#3, chk := 0#1, a := f, b := 0#16 } ∧
    assemble obs (.decrep (.ref (k + 1))) = .ok { op := 0b101#3, chk := 1#1, a := f, b := 0#16 } ∧
    assemble obs (.decrepNc (.ref (k + 1))) = .ok { op := 0b101#3, chk := 0#1, a := f, b := 0#16 }) ∧
  ∀ (obs : List CodecOutcome) (x : AsmOperand),
    assemble obs (.decreqC x) = assemble obs (.decreq x) ∧ assemble obs (.decrepC x) = assemble obs (.decrep x)

/-- The model's choice (log entry 18): the one thing an assembler line is rejected for, by name, is an operand `%k` that
does not exist: `%0`, or `%k` of an outcome that is no frame or is not there yet. Of two such operands of `encw` the
first is named. Every line whose operands all exist stands for a command. -/
def Obligations.AssemblerRejectsByName : Prop :=
  (∀ (obs : List CodecOutcome) (k : Nat), (∀ n f, k = n + 1 → obs[n]? ≠ some (.frame f)) →
    assemble obs (.crc8 (.ref k)) = .error (.noSuchFrame k) ∧
    assemble obs (.crcchk (.ref k)) = .error (.noSuchFrame k) ∧
    assemble obs (.encr (.ref k)) = .error (.noSuchFrame k) ∧
    (∀ val, assemble obs (.encw (.ref k) val) = .error (.noSuchFrame k)) ∧
    (∀ addr : Nat, assemble obs (.encw (.lit addr) (.ref k)) = .error (.noSuchFrame k)) ∧
    (∀ (j : Nat) (g : Frame), obs[j]? = some (.frame g) →
      assemble obs (.encw (.ref (j + 1)) (.ref k)) = .error (.noSuchFrame k)) ∧
    assemble obs (.decreq (.ref k)) = .error (.noSuchFrame k) ∧
    assemble obs (.decreqNc (.ref k)) = .error (.noSuchFrame k) ∧
    assemble obs (.decrep (.ref k)) = .error (.noSuchFrame k) ∧
    assemble obs (.decrepNc (.ref k)) = .error (.noSuchFrame k)) ∧
  ∀ (obs : List CodecOutcome) (l : AsmLine),
    (∀ k, .ref k ∈ l.operands → ∃ n f, k = n + 1 ∧ obs[n]? = some (.frame f)) → ∃ c, assemble obs l = .ok c

/-- 95_test_vectors.md 3.2 and the model's choice (log entry 18): a step is refused for an operand that does not exist
exactly where the host's next action is a line with such an operand, which the host must not run; a literal of any size
is no reason. -/
def Obligations.LinesAreRefusedOnlyForAMissingFrame : Prop :=
  ∀ s : State, (∃ k, step s = .refused (.noSuchFrame k)) ↔
    ∃ l rest k, s.pending = .line l :: rest ∧ .ref k ∈ l.operands ∧
      ∀ n f, k = n + 1 → s.observed[n]? ≠ some (.frame f)

/-! ## The CRC -/

/-- R61: CRC8 is the loop of the rule, bit 23 first, on a register that starts at CRC_INIT. -/
def Obligations.Crc8IsTheBitSerialLoop : Prop :=
  ∀ (cfg : Config) (m : Body),
    crc8 cfg m =
      (List.finRange 24).reverse.foldl
        (fun (c : Byte) i => if c.getLsbD 7 ^^ m.getLsbD i then (c <<< 1) ^^^ cfg.crcPoly else c <<< 1) cfg.crcInit ^^^
      cfg.crcXorOut

/-- R62: the table-driven form gives the same result for every message and every parameter; an entry of the table is
eight rounds with message bits 0; and the entries the rule lists for polynomial 0x1D. -/
def Obligations.TableDrivenCrcAgrees : Prop :=
  (∀ poly x : Byte, crcTable poly x =
    (fun c : Byte => if c.getLsbD 7 then (c <<< 1) ^^^ poly else c <<< 1)^[8] x) ∧
  (∀ (cfg : Config) (m : Body),
    crc8 cfg m =
      crcTable cfg.crcPoly
        (crcTable cfg.crcPoly
          (crcTable cfg.crcPoly (cfg.crcInit ^^^ m.extractLsb' 16 8) ^^^ m.extractLsb' 8 8) ^^^
            m.extractLsb' 0 8) ^^^ cfg.crcXorOut ∧
    crc8ByTable cfg m = crc8 cfg m) ∧
  (List.range 16).map (fun x => crcTable 0x1D#8 (BitVec.ofNat 8 x)) =
    [0x00#8, 0x1D#8, 0x3A#8, 0x27#8, 0x74#8, 0x69#8, 0x4E#8, 0x53#8, 0xE8#8, 0xF5#8, 0xD2#8, 0xCF#8, 0x9C#8,
      0x81#8, 0xA6#8, 0xBB#8] ∧
  crcTable 0x1D#8 0x80#8 = 0x26#8 ∧ crcTable 0x1D#8 0xFF#8 = 0xC4#8

/-- R63: the affine law, and the frame check law, for every value of the parameters. (Determinism is that `crc8` is a
function of the configuration and the message.) -/
def Obligations.CrcAlgebraicLaws : Prop :=
  (∀ (cfg : Config) (a b : Body), crc8 cfg (a ^^^ b) = crc8 cfg a ^^^ crc8 cfg b ^^^ crc8 cfg 0#24) ∧
  (∀ cfg : Config, cfg.crcPoly = 0x1D#8 → cfg.crcInit = 0xFF#8 → cfg.crcXorOut = 0xFF#8 →
    crc8 cfg 0#24 = 0xF1#8) ∧
  ∀ (s : State) (chk : Bit) (b : BitVec 16) (m : Body) (f : Frame), f.extractLsb' 0 24 = m →
    ((∃ t rx recomputed, exec (.crcchk chk f b) s = .next t ∧ t.output = some (.crcChk true rx recomputed)) ↔
      f = crc8 s.cfg m ++ m)

/-- R64: with polynomial 0x1D (and any initial value and final XOR), a frame that passes CRCCHK fails it after any one
bit, any two bits, or any burst of no more than 8 positions is flipped. -/
def Obligations.DefaultCrcDetectsShortErrors : Prop :=
  ∀ (s : State) (chk : Bit) (b : BitVec 16) (f e : Frame), s.cfg.crcPoly = 0x1D#8 → ErrorPattern e →
    (∃ t rx recomputed, exec (.crcchk chk f b) s = .next t ∧ t.output = some (.crcChk true rx recomputed)) →
    ∃ t rx recomputed, exec (.crcchk chk (f ^^^ e) b) s = .next t ∧ t.output = some (.crcChk false rx recomputed)

/-- R65: CRC8 completes in every state, whatever the ignored bits. -/
def Obligations.Crc8AnswersTheCrcOfTheLow24Bits : Prop :=
  ∀ (s : State) (chk : Bit) (a : BitVec 32) (b : BitVec 16),
    decodeCommand { op := 0b000#3, chk := chk, a := a, b := b } = .crc8 chk a b ∧
    exec (.crc8 chk a b) s =
      .next { s with
        output := some (.crc (crc8 s.cfg (a.extractLsb' 0 24)))
        observed := s.observed ++ [.crc (crc8 s.cfg (a.extractLsb' 0 24))] }

/-- R66: CRCCHK completes in every state; a mismatch is `ok = false`, not an error. -/
def Obligations.CrcchkReportsBothCrcs : Prop :=
  ∀ (s : State) (chk : Bit) (f : BitVec 32) (b : BitVec 16) (rx recomputed : Byte),
    rx = f.extractLsb' 24 8 → recomputed = crc8 s.cfg (f.extractLsb' 0 24) →
    decodeCommand { op := 0b001#3, chk := chk, a := f, b := b } = .crcchk chk f b ∧
    exec (.crcchk chk f b) s =
      .next { s with
        output := some (.crcChk (rx == recomputed) rx recomputed)
        observed := s.observed ++ [.crcChk (rx == recomputed) rx recomputed] }

/-! ## Request encoders -/

/-- R67, R47: ENCR completes in every state, for every address; the frame it answers, field by field. -/
def Obligations.EncrSendsTheReadRequest : Prop :=
  ∀ (s : State) (chk : Bit) (a : BitVec 32) (b : BitVec 16), ∃ f : Frame,
    decodeCommand { op := 0b010#3, chk := chk, a := a, b := b } = .encr chk a b ∧
    exec (.encr chk a b) s =
      .next { s with output := some (.frame f), observed := s.observed ++ [.frame f] } ∧
    f.extractLsb' 24 8 = crc8 s.cfg (f.extractLsb' 0 24) ∧
    f.extractLsb' 17 7 = a.extractLsb' 3 7 ∧
    f.extractLsb' 16 1 = 0#1 ∧
    f.extractLsb' 3 13 = 0#13 ∧
    f.extractLsb' 0 3 = a.extractLsb' 0 3

/-- R68, R48, R69: ENCW completes under Drop, and under Reject for an address whose bits 2:0 are zero; the frame it
answers, field by field. -/
def Obligations.EncwSendsTheWriteRequest : Prop :=
  ∀ (s : State) (chk : Bit) (a : BitVec 32) (b : BitVec 16),
    (s.cfg.writeAddrLowPolicy = .drop ∨ a.extractLsb' 0 3 = 0#3) → ∃ f : Frame,
    decodeCommand { op := 0b011#3, chk := chk, a := a, b := b } = .encw chk a b ∧
    exec (.encw chk a b) s =
      .next { s with output := some (.frame f), observed := s.observed ++ [.frame f] } ∧
    f.extractLsb' 24 8 = crc8 s.cfg (f.extractLsb' 0 24) ∧
    f.extractLsb' 17 7 = a.extractLsb' 3 7 ∧
    f.extractLsb' 16 1 = 1#1 ∧
    f.extractLsb' 0 16 = b

/-- R69: what the policy does with a write address whose bits 2:0 are not zero. Under Drop the frame is the one for
`addr[9:3] ++ 000`; under Reject the answer is an error and no frame. -/
def Obligations.WriteAddrLowPolicyDecides : Prop :=
  (∀ (s : State) (chk : Bit) (addr : RegAddr) (b : BitVec 16), s.cfg.writeAddrLowPolicy = .drop →
    exec (.encw chk (addr.setWidth 32) b) s =
      exec (.encw chk ((addr.extractLsb' 3 7 ++ 0#3 : RegAddr).setWidth 32) b) s) ∧
  ∀ (s : State) (chk : Bit) (a : BitVec 32) (b : BitVec 16), s.cfg.writeAddrLowPolicy = .reject →
    a.extractLsb' 0 3 ≠ 0#3 →
    exec (.encw chk a b) s =
      .next { s with
        output := some (.err (.writeAddrLow (a.extractLsb' 0 10)))
        observed := s.observed ++ [.err (.writeAddrLow (a.extractLsb' 0 10))] }

/-- R46: a frame that ENCR or ENCW answers passes CRCCHK. -/
def Obligations.EncodedFramesPassTheCheck : Prop :=
  ∀ (s t : State) (chk chk' : Bit) (a : BitVec 32) (b b' : BitVec 16) (f : Frame),
    (exec (.encr chk a b) s = .next t ∨ exec (.encw chk a b) s = .next t) → t.output = some (.frame f) →
    ∃ u rx, exec (.crcchk chk' f b') t = .next u ∧ u.output = some (.crcChk true rx rx)

/-! ## Decoders -/

/-- R70, R71: DECREQ completes where the CRC agrees or is not checked. -/
def Obligations.DecreqAnswersTheRequestFields : Prop :=
  ∀ (s : State) (chk : Bit) (f : Frame) (b : BitVec 16) (rx recomputed : Byte) (o : CodecOutcome),
    rx = f.extractLsb' 24 8 → recomputed = crc8 s.cfg (f.extractLsb' 0 24) →
    (chk = 0#1 ∨ rx = recomputed) →
    o = .request (f.extractLsb' 16 1) (f.extractLsb' 17 7) (f.extractLsb' 0 16)
          (if f.extractLsb' 16 1 = 0#1 then f.extractLsb' 17 7 ++ f.extractLsb' 0 3
            else f.extractLsb' 17 7 ++ 0#3) rx recomputed →
    decodeCommand { op := 0b100#3, chk := chk, a := f, b := b } = .decreq chk f b ∧
    exec (.decreq chk f b) s = .next { s with output := some o, observed := s.observed ++ [o] }

/-- R77, R78: DECREP completes on a 16-bit reply with status 0. -/
def Obligations.DecrepAnswersStatus16 : Prop :=
  ∀ (s : State) (chk : Bit) (f : Frame) (b : BitVec 16) (rx recomputed : Byte) (o : CodecOutcome),
    rx = f.extractLsb' 24 8 → recomputed = crc8 s.cfg (f.extractLsb' 0 24) →
    (chk = 0#1 ∨ rx = recomputed) → f.extractLsb' 22 2 = 0b00#2 → f.extractLsb' 17 5 = 0b00000#5 →
    o = .status16 (f.extractLsb' 16 1) (f.extractLsb' 0 16) rx recomputed →
    decodeCommand { op := 0b101#3, chk := chk, a := f, b := b } = .decrep chk f b ∧
    exec (.decrep chk f b) s = .next { s with output := some o, observed := s.observed ++ [o] }

/-- R78, R79: a status that is not zero is a device error, with the class the configuration gives it, whatever that
class is. -/
def Obligations.DecrepReportsADeviceStatus : Prop :=
  ∀ (s : State) (chk : Bit) (f : Frame) (b : BitVec 16) (rx recomputed : Byte) (status : BitVec 5),
    rx = f.extractLsb' 24 8 → recomputed = crc8 s.cfg (f.extractLsb' 0 24) →
    (chk = 0#1 ∨ rx = recomputed) → f.extractLsb' 22 2 = 0b00#2 → status = f.extractLsb' 17 5 →
    status ≠ 0b00000#5 → ∃ cls, s.cfg.statusClass[status.toNat - 1]? = some cls ∧
    exec (.decrep chk f b) s =
      .next { s with
        output := some (.err (.deviceStatus status cls (f.extractLsb' 16 1) (f.extractLsb' 0 16) rx recomputed))
        observed := s.observed ++
          [.err (.deviceStatus status cls (f.extractLsb' 16 1) (f.extractLsb' 0 16) rx recomputed)] }

/-- R80: DECREP completes on a 22-bit reply; there is no status and no status error. -/
def Obligations.DecrepAnswersReply22 : Prop :=
  ∀ (s : State) (chk : Bit) (f : Frame) (b : BitVec 16) (rx recomputed : Byte) (o : CodecOutcome),
    rx = f.extractLsb' 24 8 → recomputed = crc8 s.cfg (f.extractLsb' 0 24) →
    (chk = 0#1 ∨ rx = recomputed) → f.extractLsb' 22 2 = 0b01#2 →
    o = .reply22 (f.extractLsb' 16 6 ++ f.extractLsb' 0 16) rx recomputed →
    exec (.decrep chk f b) s = .next { s with output := some o, observed := s.observed ++ [o] }

/-- R81: DECREP completes on a critical-fault reply: a success that carries the bitmap. -/
def Obligations.DecrepAnswersCritical : Prop :=
  ∀ (s : State) (chk : Bit) (f : Frame) (b : BitVec 16) (rx recomputed : Byte) (o : CodecOutcome),
    rx = f.extractLsb' 24 8 → recomputed = crc8 s.cfg (f.extractLsb' 0 24) →
    (chk = 0#1 ∨ rx = recomputed) → f.extractLsb' 22 2 = 0b10#2 →
    o = .critical (f.extractLsb' 0 8) rx recomputed →
    exec (.decrep chk f b) s = .next { s with output := some o, observed := s.observed ++ [o] }

/-- R82: reply mode 11 is an error that carries the raw bits. -/
def Obligations.DecrepReportsTheReservedMode : Prop :=
  ∀ (s : State) (chk : Bit) (f : Frame) (b : BitVec 16) (rx recomputed : Byte) (o : CodecOutcome),
    rx = f.extractLsb' 24 8 → recomputed = crc8 s.cfg (f.extractLsb' 0 24) →
    (chk = 0#1 ∨ rx = recomputed) → f.extractLsb' 22 2 = 0b11#2 →
    o = .err (.reservedMode (f.extractLsb' 0 22) rx recomputed) →
    exec (.decrep chk f b) s = .next { s with output := some o, observed := s.observed ++ [o] }

/-- R75, R23: with `chk = 1` a wrong CRC ends both decodes, before any other field is looked at. -/
def Obligations.CheckedDecodersReportACrcMismatch : Prop :=
  ∀ (s : State) (f : Frame) (b : BitVec 16) (rx recomputed : Byte) (o : CodecOutcome),
    rx = f.extractLsb' 24 8 → recomputed = crc8 s.cfg (f.extractLsb' 0 24) → rx ≠ recomputed →
    o = .err (.crcMismatch rx recomputed) →
    exec (.decreq 1#1 f b) s = .next { s with output := some o, observed := s.observed ++ [o] } ∧
    exec (.decrep 1#1 f b) s = .next { s with output := some o, observed := s.observed ++ [o] }

/-- R57: the reserved selectors, with either value of `chk` and any operands, answer IllegalOp and nothing else. -/
def Obligations.ReservedSelectorsAnswerIllegalOp : Prop :=
  ∀ (s : State) (chk : Bit) (a : BitVec 32) (b : BitVec 16),
    decodeCommand { op := 0b110#3, chk := chk, a := a, b := b } = .reservedOp110 chk a b ∧
    decodeCommand { op := 0b111#3, chk := chk, a := a, b := b } = .reservedOp111 chk a b ∧
    exec (.reservedOp110 chk a b) s =
      .next { s with
        output := some (.err (.illegalOp 0b110#3)), observed := s.observed ++ [.err (.illegalOp 0b110#3)] } ∧
    exec (.reservedOp111 chk a b) s =
      .next { s with
        output := some (.err (.illegalOp 0b111#3)), observed := s.observed ++ [.err (.illegalOp 0b111#3)] }

/-- R46 to R48, R70, R71: the two request layouts complete where the CRC agrees or is not checked. That a layout row
is run as its decoder is the model's choice (log entry 10). -/
def Obligations.RequestFrameRowsAnswerTheirFields : Prop :=
  (∀ (s : State) (chk : Bit) (crc recomputed : Byte) (addrField : BitVec 7) (dontCare : BitVec 13)
      (addrLow : BitVec 3) (o : CodecOutcome),
    recomputed = crc8 s.cfg (addrField ++ 0#1 ++ dontCare ++ addrLow) → (chk = 0#1 ∨ crc = recomputed) →
    o = .request 0#1 addrField (dontCare ++ addrLow) (addrField ++ addrLow) crc recomputed →
    exec (.frameReadRequest chk crc addrField dontCare addrLow) s =
      .next { s with output := some o, observed := s.observed ++ [o] }) ∧
  ∀ (s : State) (chk : Bit) (crc recomputed : Byte) (addrField : BitVec 7) (value : BitVec 16) (o : CodecOutcome),
    recomputed = crc8 s.cfg (addrField ++ 1#1 ++ value) → (chk = 0#1 ∨ crc = recomputed) →
    o = .request 1#1 addrField value (addrField ++ 0#3) crc recomputed →
    exec (.frameWriteRequest chk crc addrField value) s =
      .next { s with output := some o, observed := s.observed ++ [o] }

/-- R52 to R55, R78 to R82: the four reply layouts complete where the CRC agrees or is not checked. That a layout row
is run as its decoder is the model's choice (log entry 10). -/
def Obligations.ReplyFrameRowsAnswerTheirFields : Prop :=
  (∀ (s : State) (chk : Bit) (crc recomputed : Byte) (rwEcho : Bit) (data : BitVec 16) (o : CodecOutcome),
    recomputed = crc8 s.cfg (0b00#2 ++ 0b00000#5 ++ rwEcho ++ data) → (chk = 0#1 ∨ crc = recomputed) →
    o = .status16 rwEcho data crc recomputed →
    exec (.frameStatusReply16 chk crc 0b00000#5 rwEcho data) s =
      .next { s with output := some o, observed := s.observed ++ [o] }) ∧
  (∀ (s : State) (chk : Bit) (crc recomputed : Byte) (data22 : BitVec 22) (o : CodecOutcome),
    recomputed = crc8 s.cfg (0b01#2 ++ data22) → (chk = 0#1 ∨ crc = recomputed) →
    o = .reply22 data22 crc recomputed →
    exec (.frameStatusReply22 chk crc data22) s =
      .next { s with output := some o, observed := s.observed ++ [o] }) ∧
  (∀ (s : State) (chk : Bit) (crc recomputed : Byte) (ignored : BitVec 14) (bitmap : Byte) (o : CodecOutcome),
    recomputed = crc8 s.cfg (0b10#2 ++ ignored ++ bitmap) → (chk = 0#1 ∨ crc = recomputed) →
    o = .critical bitmap crc recomputed →
    exec (.frameCriticalFault chk crc ignored bitmap) s =
      .next { s with output := some o, observed := s.observed ++ [o] }) ∧
  ∀ (s : State) (chk : Bit) (crc recomputed : Byte) (raw : BitVec 22) (o : CodecOutcome),
    recomputed = crc8 s.cfg (0b11#2 ++ raw) → (chk = 0#1 ∨ crc = recomputed) →
    o = .err (.reservedMode raw crc recomputed) →
    exec (.frameReservedReplyMode11 chk crc raw) s =
      .next { s with output := some o, observed := s.observed ++ [o] }

/-- R75, R78: where a frame brought as a transfer is turned away. With `chk = 1` a wrong CRC ends the decode of all six
layouts, and a 16-bit reply whose status is not zero is a device error. That a layout row is run as its decoder is the
model's choice (log entry 10). -/
def Obligations.FrameRowsReportTheirErrors : Prop :=
  (∀ (s : State) (crc recomputed : Byte) (addrField : BitVec 7) (dontCare : BitVec 13) (addrLow : BitVec 3)
      (o : CodecOutcome),
    recomputed = crc8 s.cfg (addrField ++ 0#1 ++ dontCare ++ addrLow) → crc ≠ recomputed →
    o = .err (.crcMismatch crc recomputed) →
    exec (.frameReadRequest 1#1 crc addrField dontCare addrLow) s =
      .next { s with output := some o, observed := s.observed ++ [o] }) ∧
  (∀ (s : State) (crc recomputed : Byte) (addrField : BitVec 7) (value : BitVec 16) (o : CodecOutcome),
    recomputed = crc8 s.cfg (addrField ++ 1#1 ++ value) → crc ≠ recomputed →
    o = .err (.crcMismatch crc recomputed) →
    exec (.frameWriteRequest 1#1 crc addrField value) s =
      .next { s with output := some o, observed := s.observed ++ [o] }) ∧
  (∀ (s : State) (crc recomputed : Byte) (status : BitVec 5) (rwEcho : Bit) (data : BitVec 16) (o : CodecOutcome),
    recomputed = crc8 s.cfg (0b00#2 ++ status ++ rwEcho ++ data) → crc ≠ recomputed →
    o = .err (.crcMismatch crc recomputed) →
    exec (.frameStatusReply16 1#1 crc status rwEcho data) s =
      .next { s with output := some o, observed := s.observed ++ [o] }) ∧
  (∀ (s : State) (crc recomputed : Byte) (data22 : BitVec 22) (o : CodecOutcome),
    recomputed = crc8 s.cfg (0b01#2 ++ data22) → crc ≠ recomputed → o = .err (.crcMismatch crc recomputed) →
    exec (.frameStatusReply22 1#1 crc data22) s =
      .next { s with output := some o, observed := s.observed ++ [o] }) ∧
  (∀ (s : State) (crc recomputed : Byte) (ignored : BitVec 14) (bitmap : Byte) (o : CodecOutcome),
    recomputed = crc8 s.cfg (0b10#2 ++ ignored ++ bitmap) → crc ≠ recomputed →
    o = .err (.crcMismatch crc recomputed) →
    exec (.frameCriticalFault 1#1 crc ignored bitmap) s =
      .next { s with output := some o, observed := s.observed ++ [o] }) ∧
  (∀ (s : State) (crc recomputed : Byte) (raw : BitVec 22) (o : CodecOutcome),
    recomputed = crc8 s.cfg (0b11#2 ++ raw) → crc ≠ recomputed → o = .err (.crcMismatch crc recomputed) →
    exec (.frameReservedReplyMode11 1#1 crc raw) s =
      .next { s with output := some o, observed := s.observed ++ [o] }) ∧
  ∀ (s : State) (chk : Bit) (crc recomputed : Byte) (status : BitVec 5) (rwEcho : Bit) (data : BitVec 16),
    recomputed = crc8 s.cfg (0b00#2 ++ status ++ rwEcho ++ data) → (chk = 0#1 ∨ crc = recomputed) →
    status ≠ 0b00000#5 → ∃ cls o, s.cfg.statusClass[status.toNat - 1]? = some cls ∧
    o = .err (.deviceStatus status cls rwEcho data crc recomputed) ∧
    exec (.frameStatusReply16 chk crc status rwEcho data) s =
      .next { s with output := some o, observed := s.observed ++ [o] }

/-- The model's choice (log entry 10): a frame brought as a transfer is answered as its decoder answers the command
for that frame, request or reply, checked or not: the six layout rows and the two commands agree on every frame. -/
def Obligations.TransferredFramesAreAnsweredAsCommands : Prop :=
  ∀ (s : State) (chk : Bit) (f : Frame) (b : BitVec 16),
    (∃ i, decode (.transfer .request chk (bytesOfFrame f)) = .ok i ∧ exec i s = exec (.decreq chk f b) s) ∧
    ∃ i, decode (.transfer .reply chk (bytesOfFrame f)) = .ok i ∧ exec i s = exec (.decrep chk f b) s

/-- R56: bits 15:3 of a read request do not change the address DECREQ rebuilds, and bits 21:8 of a critical-fault
reply do not change the bitmap DECREP answers. (How R56's "or the outcome" is read: log entry 15.) -/
def Obligations.DontCareBitsChangeNoAddressOrBitmap : Prop :=
  (∀ (s : State) (crc : Byte) (addrField : BitVec 7) (dontCare : BitVec 13) (addrLow : BitVec 3) (b : BitVec 16),
    ∃ t data recomputed,
      exec (.decreq 0#1 (crc ++ (addrField ++ 0#1 ++ dontCare ++ addrLow)) b) s = .next t ∧
      t.output = some (.request 0#1 addrField data (addrField ++ addrLow) crc recomputed)) ∧
  ∀ (s : State) (crc : Byte) (ignored : BitVec 14) (bitmap : Byte) (b : BitVec 16), ∃ t recomputed,
    exec (.decrep 0#1 (crc ++ (0b10#2 ++ ignored ++ bitmap)) b) s = .next t ∧
    t.output = some (.critical bitmap crc recomputed)

/-- R87: a request that ENCR or ENCW answers, given to DECREP, is decoded as a reply whose mode is the address's bits
9:8, checked or not: the answer in each of the four modes, where mode 00 takes the address's bits 7:3 as the status. -/
def Obligations.DecrepReadsARequestByItsAddressBits : Prop :=
  ∀ (s t : State) (chk chk' : Bit) (a : BitVec 32) (b b' : BitVec 16) (f : Frame) (crc : Byte),
    (exec (.encr chk a b) s = .next t ∨ exec (.encw chk a b) s = .next t) → t.output = some (.frame f) →
    crc = f.extractLsb' 24 8 → ∃ u, exec (.decrep chk' f b') t = .next u ∧
      (a.extractLsb' 8 2 = 0b00#2 → a.extractLsb' 3 5 = 0b00000#5 →
        u.output = some (.status16 (f.extractLsb' 16 1) (f.extractLsb' 0 16) crc crc)) ∧
      (a.extractLsb' 8 2 = 0b00#2 → a.extractLsb' 3 5 ≠ 0b00000#5 → ∃ cls,
        s.cfg.statusClass[(a.extractLsb' 3 5).toNat - 1]? = some cls ∧
        u.output = some (.err (.deviceStatus (a.extractLsb' 3 5) cls (f.extractLsb' 16 1) (f.extractLsb' 0 16) crc
          crc))) ∧
      (a.extractLsb' 8 2 = 0b01#2 → u.output = some (.reply22 (f.extractLsb' 0 22) crc crc)) ∧
      (a.extractLsb' 8 2 = 0b10#2 → u.output = some (.critical (f.extractLsb' 0 8) crc crc)) ∧
      (a.extractLsb' 8 2 = 0b11#2 → u.output = some (.err (.reservedMode (f.extractLsb' 0 22) crc crc)))

/-- R72: the round-trip laws. 1: a read request comes back with its address. 2: so does a write request whose address
ends in 000. 3: under Drop, a write to any other address comes back with another one. -/
def Obligations.RequestRoundTripLaws : Prop :=
  (∀ (s : State) (c chk : Bit) (a : RegAddr) (b b' : BitVec 16), ∃ t f u crc,
    exec (.encr c (a.setWidth 32) b) s = .next t ∧ t.output = some (.frame f) ∧
    exec (.decreq chk f b') t = .next u ∧
    u.output = some (.request 0#1 (a.extractLsb' 3 7) ((a.extractLsb' 0 3).setWidth 16) a crc crc)) ∧
  (∀ (s : State) (c chk : Bit) (a : RegAddr) (v b' : BitVec 16), a.extractLsb' 0 3 = 0#3 → ∃ t f u crc,
    exec (.encw c (a.setWidth 32) v) s = .next t ∧ t.output = some (.frame f) ∧
    exec (.decreq chk f b') t = .next u ∧
    u.output = some (.request 1#1 (a.extractLsb' 3 7) v a crc crc)) ∧
  ∀ (s : State) (c chk : Bit) (a : RegAddr) (v b' : BitVec 16), s.cfg.writeAddrLowPolicy = .drop →
    a.extractLsb' 0 3 ≠ 0#3 → ∃ t f u crc,
    exec (.encw c (a.setWidth 32) v) s = .next t ∧ t.output = some (.frame f) ∧
    exec (.decreq chk f b') t = .next u ∧
    u.output = some (.request 1#1 (a.extractLsb' 3 7) v (a.extractLsb' 3 7 ++ 0#3) crc crc) ∧
    (a.extractLsb' 3 7 ++ 0#3 : RegAddr) ≠ a

/-- R72, R64: with the default polynomial, an encoded request that a short error corrupts is answered by the checked
DECREQ as a CRC mismatch, never as a request. -/
def Obligations.CorruptedRequestsAreNotDecoded : Prop :=
  ∀ (s t : State) (chk : Bit) (a : BitVec 32) (b b' : BitVec 16) (f e : Frame), s.cfg.crcPoly = 0x1D#8 →
    ErrorPattern e → (exec (.encr chk a b) s = .next t ∨ exec (.encw chk a b) s = .next t) →
    t.output = some (.frame f) →
    ∃ u rx recomputed, exec (.decreq 1#1 (f ^^^ e) b') t = .next u ∧
      u.output = some (.err (.crcMismatch rx recomputed))

/-! ## Outcomes, errors and what they depend on -/

/-- R89, R90: each error has exactly its cause, among the commands that raise it, and records what the table says. The
rows of IllegalOp, WriteAddrLow and ReservedMode are decisions of the spec (D17, D14, and D8 with log entry 13), and so is
the order of R90 (D18), from which the guard `chk = 0` or `rx = recomputed` of the last two rows comes. -/
def Obligations.EachErrorHasExactlyItsCause : Prop :=
  ∀ (s : State) (c : Command), ∃ o t, exec (decodeCommand c) s = .next t ∧ t.output = some o ∧
    (∀ op, o = .err (.illegalOp op) ↔ (c.op = 0b110#3 ∨ c.op = 0b111#3) ∧ op = c.op) ∧
    (∀ addr, o = .err (.writeAddrLow addr) ↔
      c.op = 0b011#3 ∧ s.cfg.writeAddrLowPolicy = .reject ∧ c.a.extractLsb' 0 3 ≠ 0#3 ∧
        addr = c.a.extractLsb' 0 10) ∧
    (∀ rx recomputed, o = .err (.crcMismatch rx recomputed) ↔
      (c.op = 0b100#3 ∨ c.op = 0b101#3) ∧ c.chk = 1#1 ∧ rx = c.a.extractLsb' 24 8 ∧
        recomputed = crc8 s.cfg (c.a.extractLsb' 0 24) ∧ rx ≠ recomputed) ∧
    (∀ raw rx recomputed, o = .err (.reservedMode raw rx recomputed) ↔
      c.op = 0b101#3 ∧ (c.chk = 0#1 ∨ rx = recomputed) ∧ c.a.extractLsb' 22 2 = 0b11#2 ∧
        raw = c.a.extractLsb' 0 22 ∧ rx = c.a.extractLsb' 24 8 ∧
        recomputed = crc8 s.cfg (c.a.extractLsb' 0 24)) ∧
    ∀ status cls rwEcho data rx recomputed,
      o = .err (.deviceStatus status cls rwEcho data rx recomputed) ↔
      c.op = 0b101#3 ∧ (c.chk = 0#1 ∨ rx = recomputed) ∧ c.a.extractLsb' 22 2 = 0b00#2 ∧
        c.a.extractLsb' 17 5 ≠ 0#5 ∧ status = c.a.extractLsb' 17 5 ∧
        s.cfg.statusClass[status.toNat - 1]? = some cls ∧ rwEcho = c.a.extractLsb' 16 1 ∧
        data = c.a.extractLsb' 0 16 ∧ rx = c.a.extractLsb' 24 8 ∧
        recomputed = crc8 s.cfg (c.a.extractLsb' 0 24)

/-- R90: where more than one cause applies, the first of the list wins; where none does, the result code is 0. -/
def Obligations.FirstErrorCauseWins : Prop :=
  ∀ (s : State) (c : Command), ∃ o t, exec (decodeCommand c) s = .next t ∧ t.output = some o ∧
    o.res =
      if c.op = 0b110#3 ∨ c.op = 0b111#3 then 1
      else if c.op = 0b011#3 ∧ s.cfg.writeAddrLowPolicy = .reject ∧ c.a.extractLsb' 0 3 ≠ 0#3 then 2
      else if (c.op = 0b100#3 ∨ c.op = 0b101#3) ∧ c.chk = 1#1 ∧
        c.a.extractLsb' 24 8 ≠ crc8 s.cfg (c.a.extractLsb' 0 24) then 3
      else if c.op = 0b101#3 ∧ c.a.extractLsb' 22 2 = 0b11#2 then 4
      else if c.op = 0b101#3 ∧ c.a.extractLsb' 22 2 = 0b00#2 ∧ c.a.extractLsb' 17 5 ≠ 0#5 then 5
      else 0

/-- R88: result codes 6 and 7 are never produced. -/
def Obligations.ResultCodesSixAndSevenAreNeverProduced : Prop :=
  ∀ (s t : State) (i : Instr), exec i s = .next t → ∃ o, t.output = some o ∧ o.res ≠ 6 ∧ o.res ≠ 7

/-- R45, R22: two commands with the same selector that agree on the bits their operation reads have the same effect,
whatever stands in the bits it ignores. -/
def Obligations.IgnoredBitsAffectNothing : Prop :=
  ∀ (s : State) (c d : Command), c.op = d.op →
    (c.op = 0b000#3 → c.a.extractLsb' 0 24 = d.a.extractLsb' 0 24) →
    (c.op = 0b001#3 → c.a = d.a) →
    (c.op = 0b010#3 → c.a.extractLsb' 0 10 = d.a.extractLsb' 0 10) →
    (c.op = 0b011#3 → c.a.extractLsb' 0 10 = d.a.extractLsb' 0 10 ∧ c.b = d.b) →
    (c.op = 0b100#3 → c.a = d.a ∧ c.chk = d.chk) →
    (c.op = 0b101#3 → c.a = d.a ∧ c.chk = d.chk) →
    exec (decodeCommand c) s = exec (decodeCommand d) s

/-- R14, R34, R92: every instruction answers in every state; what it answers depends on its fields and the
configuration alone, and it changes nothing but the output and the observation. (The frame layouts are instructions by
log entry 10.) -/
def Obligations.EveryInstructionAnswersWithoutHistory : Prop :=
  ∀ (i : Instr) (cfg : Config), ∃ o : CodecOutcome, ∀ s : State, s.cfg = cfg →
    exec i s = .next { s with output := some o, observed := s.observed ++ [o] }

/-- R86: DECREP is total, and depends on the configuration only through the three CRC parameters and STATUS_CLASS;
where its answer is no device error, not through STATUS_CLASS either. -/
def Obligations.DecrepDependsOnCrcAndStatusClassOnly : Prop :=
  ∀ (chk : Bit) (f : Frame) (b : BitVec 16) (cfg cfg' : Config), cfg.crcPoly = cfg'.crcPoly →
    cfg.crcInit = cfg'.crcInit → cfg.crcXorOut = cfg'.crcXorOut →
    ∃ o o' : CodecOutcome,
      (∀ s : State, s.cfg = cfg →
        exec (.decrep chk f b) s = .next { s with output := some o, observed := s.observed ++ [o] }) ∧
      (∀ s : State, s.cfg = cfg' →
        exec (.decrep chk f b) s = .next { s with output := some o', observed := s.observed ++ [o'] }) ∧
      (cfg.statusClass = cfg'.statusClass → o = o') ∧ (o.res ≠ 5 → o = o')

/-- R8: no rule reads FAULT_BIT_MEANING: no instruction's answer changes with it. -/
def Obligations.NoAnswerDependsOnFaultBitMeaning : Prop :=
  ∀ (i : Instr) (s : State) (names : Vector String 8), ∃ o : CodecOutcome,
    exec i s = .next { s with output := some o, observed := s.observed ++ [o] } ∧
    exec i { s with cfg := { s.cfg with faultBitMeaning := names } } =
      .next { s with
        cfg := { s.cfg with faultBitMeaning := names }, output := some o, observed := s.observed ++ [o] }

/-! ## Runs -/

/-- R26: no step of a run changes the configuration. -/
def Obligations.ConfigurationIsConstantForARun : Prop :=
  ∀ (n : Nat) (s t : State), core.run n s = .next t → t.cfg = s.cfg

/-- R110, R37: the observation of a run of commands is the list of outcomes, one for each command in order, each the
outcome its command has alone, with no history, under the same configuration. That the last outcome then stands at the
output is log entry 8. -/
def Obligations.RunObservesOneOutcomeForEachCommand : Prop :=
  ∀ (s : State) (cs : List Command) (rest : List HostAction),
    s.pending = cs.map (fun c => .present (.command c)) ++ rest →
    ∃ os : List CodecOutcome,
      core.run cs.length s =
        .next { s with
          pending := rest
          output := (os.getLast?).or s.output
          observed := s.observed ++ os } ∧
      List.Forall₂ (fun c o => ∃ t,
        exec (decodeCommand c) { cfg := s.cfg, pending := [], output := none, observed := [] } = .next t ∧
          t.output = some o) cs os

/-- R34, R37: commands presented in another order, in another state of the same configuration, are given the same
outcomes, each command its own. -/
def Obligations.ReorderedCommandsKeepTheirOutcomes : Prop :=
  ∀ (s s' t t' : State) (cs cs' : List Command), s.cfg = s'.cfg → cs.Perm cs' →
    s.pending = cs.map (fun c => .present (.command c)) → s'.pending = cs'.map (fun c => .present (.command c)) →
    core.run cs.length s = .next t → core.run cs'.length s' = .next t' →
    ∃ os os', t.observed = s.observed ++ os ∧ t'.observed = s'.observed ++ os' ∧ os.length = cs.length ∧
      os'.length = cs'.length ∧ (cs.zip os).Perm (cs'.zip os')

/-- The invariant of a run holds after reset. -/
def Obligations.InvariantHoldsAfterReset : Prop := State.reset.Inv

/-- Every step keeps the invariant, from every state that has it: the output shows the last outcome observed (log
entry 8), and every outcome observed is one the rules allow. -/
def Obligations.EveryStepKeepsTheInvariant : Prop :=
  ∀ s t : State, s.Inv → step s = .next t → t.Inv

end
end

