-- ==== Sys2Proof/Laws/Assembler.lean ====
section
/-! SUPPORT. What the assembler of R59 can do. -/

namespace Sys2Proof.Machine

@[simp] theorem operandExists_lit (observed : List CodecOutcome) (v : Nat) :
    operandExists observed (.lit v) = true := rfl
@[simp] theorem operandValue_lit (observed : List CodecOutcome) (v : Nat) :
    operandValue observed (.lit v) = .ok (BitVec.ofNat 32 v) := rfl
@[simp] theorem referencedFrame_zero (observed : List CodecOutcome) : referencedFrame observed 0 = none := rfl

/-- `%(n + 1)` is the frame at place `n` of the observation, where there is one. -/
theorem referencedFrame_succ_eq_some_iff (observed : List CodecOutcome) (n : Nat) (f : Frame) :
    referencedFrame observed (n + 1) = some f ↔ observed[n]? = some (.frame f) := by
  cases h : observed[n]? with
  | none => simp [referencedFrame, h]
  | some o => cases o <;> simp [referencedFrame, CodecOutcome.frame?, h]

/-- `%k` exists exactly where `k` counts, from 1, to an outcome that is a frame. -/
theorem operandExists_ref_iff (observed : List CodecOutcome) (k : Nat) :
    operandExists observed (.ref k) = true ↔ ∃ n f, k = n + 1 ∧ observed[n]? = some (.frame f) := by
  cases k with
  | zero => simp [operandExists]
  | succ n =>
    simp only [operandExists, Option.isSome_iff_exists, referencedFrame_succ_eq_some_iff, Nat.add_right_cancel_iff]
    exact ⟨fun ⟨f, h⟩ => ⟨n, f, rfl, h⟩, fun ⟨_, f, hn, h⟩ => ⟨f, hn ▸ h⟩⟩

/-- An operand exists and has a value, or it is a reference to no frame. -/
theorem operandValue_cases (observed : List CodecOutcome) (x : AsmOperand) :
    (∃ v, operandExists observed x = true ∧ operandValue observed x = .ok v) ∨
      ∃ k, x = .ref k ∧ operandExists observed x = false ∧ operandValue observed x = .error (.noSuchFrame k) := by
  cases x with
  | lit v => exact .inl ⟨_, rfl, rfl⟩
  | ref k => cases h : referencedFrame observed k <;> simp [operandExists, operandValue, h]

/-- A line with one operand is the command of its value, or it is rejected with the operand's name. -/
theorem lineCommand_cases (op : BitVec 3) (chk : Bit) (width : Nat) (observed : List CodecOutcome) (x : AsmOperand) :
    (∃ v, operandExists observed x = true ∧ operandValue observed x = .ok v ∧
        lineCommand op chk width observed x = .ok { op := op, chk := chk, a := operandA width v, b := 0#16 }) ∨
      ∃ k, x = .ref k ∧ operandExists observed x = false ∧
        lineCommand op chk width observed x = .error (.noSuchFrame k) := by
  unfold lineCommand
  obtain ⟨v, hx, h⟩ | ⟨k, hx, hk, h⟩ := operandValue_cases observed x
  · exact .inl ⟨v, hx, h, by simp [h]⟩
  · exact .inr ⟨k, hx, hk, by simp [h]⟩

/-- The line of ENCW is the command of its two values, or it is rejected with the name of its first operand that does
not exist. -/
theorem encwCommand_cases (observed : List CodecOutcome) (addr val : AsmOperand) :
    (∃ a v, operandExists observed addr = true ∧ operandExists observed val = true ∧
        operandValue observed addr = .ok a ∧ operandValue observed val = .ok v ∧
        encwCommand observed addr val = .ok { op := 0b011#3, chk := 0#1, a := operandA 10 a, b := operandB v }) ∨
      (∃ k, addr = .ref k ∧ operandExists observed addr = false ∧
        encwCommand observed addr val = .error (.noSuchFrame k)) ∨
      ∃ k, val = .ref k ∧ operandExists observed addr = true ∧ operandExists observed val = false ∧
        encwCommand observed addr val = .error (.noSuchFrame k) := by
  unfold encwCommand
  obtain ⟨a, ha, hav⟩ | ⟨k, ha, hk, hav⟩ := operandValue_cases observed addr
  · obtain ⟨v, hv, hvv⟩ | ⟨k, hv, hk, hvv⟩ := operandValue_cases observed val
    · exact .inl ⟨a, v, ha, hv, hav, hvv, by simp [hav, hvv]⟩
    · exact .inr (.inr ⟨k, hv, ha, hk, by simp [hav, hvv]⟩)
  · exact .inr (.inl ⟨k, ha, hk, by simp [hav]⟩)

/-- A line stands for a command where all its operands exist; else it is rejected with the name of one that does not. -/
theorem assemble_cases (observed : List CodecOutcome) (l : AsmLine) :
    (∃ c, (∀ x ∈ l.operands, operandExists observed x = true) ∧ assemble observed l = .ok c) ∨
      ∃ k, .ref k ∈ l.operands ∧ operandExists observed (.ref k) = false ∧
        assemble observed l = .error (.noSuchFrame k) := by
  have one (op : BitVec 3) (chk : Bit) (width : Nat) (x : AsmOperand) :
      (∃ c, (∀ y ∈ [x], operandExists observed y = true) ∧ lineCommand op chk width observed x = .ok c) ∨
        ∃ k, .ref k ∈ [x] ∧ operandExists observed (.ref k) = false ∧
          lineCommand op chk width observed x = .error (.noSuchFrame k) := by
    obtain ⟨v, hx, -, h⟩ | ⟨k, rfl, hk, h⟩ := lineCommand_cases op chk width observed x
    · exact .inl ⟨_, by simp [hx], h⟩
    · exact .inr ⟨k, by simp, hk, h⟩
  cases l with
  | encw addr val =>
    obtain ⟨a, v, ha, hv, -, -, h⟩ | ⟨k, rfl, hk, h⟩ | ⟨k, rfl, -, hk, h⟩ := encwCommand_cases observed addr val
    · exact .inl ⟨_, by simp [AsmLine.operands, ha, hv], h⟩
    · exact .inr ⟨k, by simp [AsmLine.operands], hk, h⟩
    · exact .inr ⟨k, by simp [AsmLine.operands], hk, h⟩
  | _ => exact one ..

/-- A literal is truncated to the column it stands in: the bits above `width` are lost (R22, R59). -/
theorem operandA_ofNat {width : Nat} (h : width ≤ 32) (v : Nat) :
    operandA width (BitVec.ofNat 32 v) = (BitVec.ofNat width v).setWidth 32 := by
  rw [← BitVec.toNat_inj]
  simp [operandA, Nat.mod_mod_of_dvd v (Nat.pow_dvd_pow 2 h)]

/-- A value is truncated to its 16 bits (R22). -/
theorem operandB_ofNat (v : Nat) : operandB (BitVec.ofNat 32 v) = BitVec.ofNat 16 v := by
  rw [← BitVec.toNat_inj]
  simp [operandB, Nat.mod_mod_of_dvd v (Nat.pow_dvd_pow 2 (show 16 ≤ 32 by decide))]

/-- An operation that reads `width` bits of A is given those of the operand, and zero above them (R59). -/
theorem operandA_eq_append {width ignored : Nat} (h : ignored + width = 32) (v : BitVec 32) :
    operandA width v = (0#ignored ++ v.extractLsb' 0 width).cast h := by
  rw [← BitVec.toNat_inj, BitVec.toNat_cast, BitVec.toNat_append]
  simp only [operandA, BitVec.toNat_setWidth, BitVec.extractLsb'_toNat, BitVec.toNat_ofNat, Nat.zero_mod,
    Nat.zero_shiftLeft, Nat.zero_or]
  exact Nat.mod_eq_of_lt (Nat.lt_of_lt_of_le (Nat.mod_lt _ (Nat.two_pow_pos _)) (Nat.pow_le_pow_right (by decide)
    (by omega)))

/-- A frame passed whole to an operation that reads all of A reaches it unchanged. -/
theorem operandA_32 (f : Frame) : operandA 32 f = f := by
  rw [← BitVec.toNat_inj]
  simp [operandA]

end Sys2Proof.Machine
end

