-- ==== Sys2Proof/Laws/Decode.lean ====
section
/-! SUPPORT. What the decoder and its helpers can do. -/

namespace Sys2Proof

open Machine

/-- Four bytes, and nothing else, make a frame (R30, R33). -/
theorem frameOfBytes_cases (bytes : List Byte) :
    (∃ rx0 rx1 rx2 rx3 : Byte, bytes = [rx0, rx1, rx2, rx3] ∧
        frameOfBytes bytes = some (rx0 ++ rx1 ++ rx2 ++ rx3)) ∨
      (bytes.length ≠ 4 ∧ frameOfBytes bytes = none) := by
  unfold frameOfBytes
  split
  next rx0 rx1 rx2 rx3 => exact .inl ⟨rx0, rx1, rx2, rx3, rfl, rfl⟩
  next h =>
    refine .inr ⟨fun hlen => ?_, rfl⟩
    match bytes, hlen with
    | [rx0, rx1, rx2, rx3], _ => exact h rx0 rx1 rx2 rx3 rfl

/-- A transfer is decoded from its frame and its direction, or rejected with its length. -/
theorem decode_transfer_cases (dir : Direction) (chk : Bit) (bytes : List Byte) :
    (∃ f, frameOfBytes bytes = some f ∧ decode (.transfer dir chk bytes) = .ok (decodeFrame dir chk f)) ∨
      (frameOfBytes bytes = none ∧ decode (.transfer dir chk bytes) = .error (.notFourBytes bytes.length)) := by
  cases h : frameOfBytes bytes with
  | some f => exact .inl ⟨f, rfl, by simp [decode, h]⟩
  | none => exact .inr ⟨rfl, by simp [decode, h]⟩

@[simp] theorem decode_command (c : Command) : decode (.command c) = .ok (decodeCommand c) := rfl

end Sys2Proof
end

