-- ==== Sys2Proof/Laws/State.lean ====
section
/-! SUPPORT. One lemma for each field and each update of the state. -/

namespace Sys2Proof.Machine

@[simp] theorem State.deliver_cfg (s : State) (o : CodecOutcome) : (s.deliver o).cfg = s.cfg := rfl
@[simp] theorem State.deliver_pending (s : State) (o : CodecOutcome) : (s.deliver o).pending = s.pending := rfl
@[simp] theorem State.deliver_output (s : State) (o : CodecOutcome) : (s.deliver o).output = some o := rfl
@[simp] theorem State.deliver_observed (s : State) (o : CodecOutcome) :
    (s.deliver o).observed = s.observed ++ [o] := rfl

@[simp] theorem State.withPending_cfg (s : State) (p : List HostAction) : (s.withPending p).cfg = s.cfg := rfl
@[simp] theorem State.withPending_pending (s : State) (p : List HostAction) : (s.withPending p).pending = p := rfl
@[simp] theorem State.withPending_output (s : State) (p : List HostAction) : (s.withPending p).output = s.output := rfl
@[simp] theorem State.withPending_observed (s : State) (p : List HostAction) :
    (s.withPending p).observed = s.observed := rfl

@[simp] theorem State.withPending_withPending (s : State) (p q : List HostAction) :
    (s.withPending p).withPending q = s.withPending q := rfl
@[simp] theorem State.withPending_self (s : State) : s.withPending s.pending = s := rfl
theorem State.deliver_withPending (s : State) (p : List HostAction) (o : CodecOutcome) :
    (s.withPending p).deliver o = (s.deliver o).withPending p := rfl

end Sys2Proof.Machine
end

