-- ==== Sys2Proof/Laws/Ops.lean ====
section
/-! SUPPORT. For each shared operation, one lemma that says all it can do. -/

namespace Sys2Proof.Machine

/-- An outcome is delivered in the step, whatever it is (R92). -/
theorem complete_eq_next_iff {o : CodecOutcome} {s t : State} : complete o s = .next t ↔ s.deliver o = t := by
  simp [complete]

theorem complete_ne_fault (o : CodecOutcome) (s : State) (r : Fault) : complete o s ≠ .fault r := by
  simp [complete]

theorem complete_ne_refused (o : CodecOutcome) (s : State) (r : Refusal) : complete o s ≠ .refused r := by
  simp [complete]

/-- The CRC stage either ends the decode with the mismatch it found, or goes on with the recomputed CRC. -/
theorem crcStage_cases (cfg : Config) (chk : Bit) (rx : Byte) (body : Body) (decoded : Byte → CodecOutcome) :
    (chk = 1#1 ∧ rx ≠ crc8 cfg body ∧
        crcStage cfg chk rx body decoded = .err (.crcMismatch rx (crc8 cfg body))) ∨
      ((chk = 1#1 → rx = crc8 cfg body) ∧ crcStage cfg chk rx body decoded = decoded (crc8 cfg body)) := by
  unfold crcStage
  split
  next h => exact .inl ⟨h.1, h.2, rfl⟩
  next h => exact .inr ⟨fun hc => by_contra fun hne => h ⟨hc, hne⟩, rfl⟩

/-- A 16-bit reply is a device error exactly where its status is not zero. -/
theorem status16Outcome_cases (cfg : Config) (status : BitVec 5) (rwEcho : Bit) (data : BitVec 16) (rx crc : Byte) :
    (status = 0#5 ∧ status16Outcome cfg status rwEcho data rx crc = .status16 rwEcho data rx crc) ∨
      (status ≠ 0#5 ∧ status16Outcome cfg status rwEcho data rx crc =
        .err (.deviceStatus status (classOf cfg status) rwEcho data rx crc)) := by
  unfold status16Outcome
  split
  next h => exact .inr ⟨h, rfl⟩
  next h => exact .inl ⟨not_not.mp h, rfl⟩

/-- The four branches of the mode stage. -/
theorem replyOfMode_cases (cfg : Config) (f : Frame) (crc : Byte) :
    (frameMode f = 0b00#2 ∧ replyOfMode cfg f crc =
        status16Outcome cfg (frameStatus f) (frameRw f) (frameData f) (frameCrc f) crc) ∨
      (frameMode f = 0b01#2 ∧ replyOfMode cfg f crc = .reply22 (frameData22 f) (frameCrc f) crc) ∨
      (frameMode f = 0b10#2 ∧ replyOfMode cfg f crc = .critical (frameBitmap f) (frameCrc f) crc) ∨
      (frameMode f = 0b11#2 ∧ replyOfMode cfg f crc = .err (.reservedMode (frameData22 f) (frameCrc f) crc)) := by
  unfold replyOfMode
  generalize frameMode f = m
  have hm : m = 0b00#2 ∨ m = 0b01#2 ∨ m = 0b10#2 ∨ m = 0b11#2 := by revert m; decide
  rcases hm with rfl | rfl | rfl | rfl <;> simp

/-- Reading the output gives the value it holds, or faults because it holds none. -/
theorem readOutput_cases (s : State) :
    (s.output = none ∧ readOutput s = .error .outcomeUnset) ∨ ∃ o, s.output = some o ∧ readOutput s = .ok o := by
  cases h : s.output <;> simp [readOutput, h]

/-- A presented item is executed as what it decodes to, or refused as no frame. -/
theorem present_cases (p : Presented) (s : State) :
    (∃ i, decode p = .ok i ∧ present p s = exec i s) ∨
      ∃ n, decode p = .error (.notFourBytes n) ∧ present p s = .refused (.notAFrame n) := by
  unfold present
  cases h : decode p with
  | ok i => exact .inl ⟨i, rfl, rfl⟩
  | error r => cases r with | notFourBytes n => exact .inr ⟨n, rfl, rfl⟩

/-- A line is executed as the command it stands for, or refused because an operand names no frame. -/
theorem presentLine_cases (l : AsmLine) (s : State) :
    (∃ c, assemble s.observed l = .ok c ∧ presentLine l s = exec (decodeCommand c) s) ∨
      ∃ k, assemble s.observed l = .error (.noSuchFrame k) ∧ presentLine l s = .refused (.noSuchFrame k) := by
  unfold presentLine
  cases h : assemble s.observed l with
  | ok c => exact .inl ⟨c, rfl, rfl⟩
  | error r => cases r with | noSuchFrame k => exact .inr ⟨k, rfl, rfl⟩

end Sys2Proof.Machine
end

