-- ==== Sys2Proof/Laws/PerInstr.lean ====
section
/-! SUPPORT. The family EncodeRow: the encoder writes the fixed bits of the instruction's row of
spec/opcode_table.json. -/

namespace Sys2Proof.Laws.EncodeRow

open Machine

/-- The bits of the encoded instruction, under its row's mask, are its row's match. -/
def Statement (i : Instr) : Prop := (encode i).bits &&& i.rowMask = i.rowMatch

/-- A field of `k` bits at bit `m`, cut out with a mask. -/
theorem and_field_mask (n k m : Nat) : n &&& ((2 ^ k - 1) * 2 ^ m) = n / 2 ^ m % 2 ^ k * 2 ^ m := by
  apply Nat.eq_of_testBit_eq
  intro i
  rw [Nat.testBit_and, Nat.testBit_mul_two_pow, Nat.testBit_mul_two_pow, Nat.testBit_mod_two_pow,
    Nat.testBit_div_two_pow, Nat.testBit_two_pow_sub_one]
  by_cases h : m ≤ i
  · rw [show i - m + m = i by omega]
    cases n.testBit i <;> simp [h]
  · simp [h]

/-- A concatenation as a number. -/
theorem toNat_append_eq {m n : Nat} (x : BitVec m) (y : BitVec n) : (x ++ y).toNat = x.toNat * 2 ^ n + y.toNat := by
  rw [BitVec.toNat_append, ← Nat.shiftLeft_add_eq_or_of_lt y.isLt, Nat.shiftLeft_eq]

/-- The low three bits of a command's bits are its selector. -/
theorem command_bits_and_7 (op : BitVec 3) (chk : Bit) (a : BitVec 32) (b : BitVec 16) :
    (commandOf op chk a b).bits &&& 0x7 = op.toNat := by
  have hop := op.isLt
  rw [show (0x7 : Nat) = (2 ^ 3 - 1) * 2 ^ 0 by decide, and_field_mask]
  simp only [commandOf, Presented.bits, Command.word, toNat_append_eq]
  omega

/-- A transferred frame's bits are the CRC field above the body. -/
theorem transfer_bits (dir : Direction) (chk : Bit) (crc : Byte) (body : Body) :
    (transferOf dir chk crc body).bits = crc.toNat * 2 ^ 24 + body.toNat := by
  simp only [transferOf, Presented.bits, bytesOfFrame, frameOfBytes, Option.getD_some]
  rw [BitVec.extractLsb'_append_extractLsb'_eq_extractLsb' (by decide),
    BitVec.extractLsb'_append_extractLsb'_eq_extractLsb' (by decide),
    BitVec.extractLsb'_append_extractLsb'_eq_extractLsb' (by decide), BitVec.extractLsb'_eq_self, frameOf,
    toNat_append_eq]

/-- A request frame under the mask of its R/W bit. -/
theorem request_bits_and_mask (dir : Direction) (chk : Bit) (crc : Byte) (body : Body) :
    (transferOf dir chk crc body).bits &&& 0x00010000 = body.toNat / 2 ^ 16 % 2 * 2 ^ 16 := by
  rw [transfer_bits, show (0x00010000 : Nat) = (2 ^ 1 - 1) * 2 ^ 16 by decide, and_field_mask]
  omega

/-- A reply frame under the mask of its reply mode. -/
theorem reply_bits_and_mask (dir : Direction) (chk : Bit) (crc : Byte) (body : Body) :
    (transferOf dir chk crc body).bits &&& 0x00C00000 = body.toNat / 2 ^ 22 * 2 ^ 22 := by
  have hbody := body.isLt
  rw [transfer_bits, show (0x00C00000 : Nat) = (2 ^ 2 - 1) * 2 ^ 22 by decide, and_field_mask]
  omega

theorem crc8 (chk : Bit) (a : BitVec 32) (b : BitVec 16) : Statement (.crc8 chk a b) := command_bits_and_7 _ chk a b
theorem crcchk (chk : Bit) (a : BitVec 32) (b : BitVec 16) : Statement (.crcchk chk a b) :=
  command_bits_and_7 _ chk a b
theorem encr (chk : Bit) (a : BitVec 32) (b : BitVec 16) : Statement (.encr chk a b) := command_bits_and_7 _ chk a b
theorem encw (chk : Bit) (a : BitVec 32) (b : BitVec 16) : Statement (.encw chk a b) := command_bits_and_7 _ chk a b
theorem decreq (chk : Bit) (a : BitVec 32) (b : BitVec 16) : Statement (.decreq chk a b) :=
  command_bits_and_7 _ chk a b
theorem decrep (chk : Bit) (a : BitVec 32) (b : BitVec 16) : Statement (.decrep chk a b) :=
  command_bits_and_7 _ chk a b
theorem reservedOp110 (chk : Bit) (a : BitVec 32) (b : BitVec 16) : Statement (.reservedOp110 chk a b) :=
  command_bits_and_7 _ chk a b
theorem reservedOp111 (chk : Bit) (a : BitVec 32) (b : BitVec 16) : Statement (.reservedOp111 chk a b) :=
  command_bits_and_7 _ chk a b

theorem frameReadRequest (chk : Bit) (crc : Byte) (addrField : BitVec 7) (dontCare : BitVec 13)
    (addrLow : BitVec 3) : Statement (.frameReadRequest chk crc addrField dontCare addrLow) := by
  have h := dontCare.isLt
  have h' := addrLow.isLt
  refine (request_bits_and_mask _ chk crc _).trans ?_
  simp only [readBody, toNat_append_eq, Instr.rowMatch, BitVec.toNat_ofNat]
  omega

theorem frameWriteRequest (chk : Bit) (crc : Byte) (addrField : BitVec 7) (value : BitVec 16) :
    Statement (.frameWriteRequest chk crc addrField value) := by
  have h := value.isLt
  refine (request_bits_and_mask _ chk crc _).trans ?_
  simp only [writeBody, toNat_append_eq, Instr.rowMatch, BitVec.toNat_ofNat]
  omega

theorem frameStatusReply16 (chk : Bit) (crc : Byte) (status : BitVec 5) (rwEcho : Bit) (data : BitVec 16) :
    Statement (.frameStatusReply16 chk crc status rwEcho data) := by
  have h := status.isLt
  have h' := rwEcho.isLt
  have h'' := data.isLt
  refine (reply_bits_and_mask _ chk crc _).trans ?_
  simp only [reply16Body, toNat_append_eq, Instr.rowMatch, BitVec.toNat_ofNat]
  omega

theorem frameStatusReply22 (chk : Bit) (crc : Byte) (data22 : BitVec 22) :
    Statement (.frameStatusReply22 chk crc data22) := by
  have h := data22.isLt
  refine (reply_bits_and_mask _ chk crc _).trans ?_
  simp only [reply22Body, toNat_append_eq, Instr.rowMatch, BitVec.toNat_ofNat]
  omega

theorem frameCriticalFault (chk : Bit) (crc : Byte) (ignored : BitVec 14) (bitmap : Byte) :
    Statement (.frameCriticalFault chk crc ignored bitmap) := by
  have h := ignored.isLt
  have h' := bitmap.isLt
  refine (reply_bits_and_mask _ chk crc _).trans ?_
  simp only [criticalBody, toNat_append_eq, Instr.rowMatch, BitVec.toNat_ofNat]
  omega

theorem frameReservedReplyMode11 (chk : Bit) (crc : Byte) (raw : BitVec 22) :
    Statement (.frameReservedReplyMode11 chk crc raw) := by
  have h := raw.isLt
  refine (reply_bits_and_mask _ chk crc _).trans ?_
  simp only [reservedModeBody, toNat_append_eq, Instr.rowMatch, BitVec.toNat_ofNat]
  omega

end Sys2Proof.Laws.EncodeRow
end

