-- ==== Sys2Proof/Tests/Slice0.lean ====
section
/-! SUPPORT. Tests. Expected values are those of spec/95_test_vectors.md (by section) or of the worked examples of the
rules named; each witness shows that the hypotheses of the statement it is named after can be met together. -/

namespace Sys2Proof.Tests

open Sys2Proof.Machine

/-- What a step delivered, if it answered a next state. -/
def delivered : Host.Outcome State Fault Refusal → Option CodecOutcome
  | .next s => s.output
  | _ => none

/-- The state after reset, with the host about to do `acts`. -/
def about (acts : List HostAction) : State := State.reset.withPending acts

/-- The state after reset, under the Reject policy (R69). -/
def rejecting : State := { State.reset with cfg := { State.reset.cfg with writeAddrLowPolicy := .reject } }

/-- The state after reset, with the alternative profile of 95_test_vectors.md 2.1: initial value and final XOR 0. -/
def zeroProfile : State := { State.reset with cfg := { State.reset.cfg with crcInit := 0#8, crcXorOut := 0#8 } }

/-- The state after reset, with a STATUS_CLASS made up for the test: status 31 alone is an internal bus fault. -/
def classified : State :=
  { State.reset with
    cfg := { State.reset.cfg with statusClass := (Vector.replicate 31 .unclassified).set 30 .internalBusFault } }

/-- The state after reset, with an outcome at the output. -/
def answered (o : CodecOutcome) : State := State.reset.deliver o

/-! ## Well-formedness (R33): an ill-formed term for the check -/

theorem test_wf_refuses_three_bytes : (Presented.transfer .reply 1#1 [0#8, 0#8, 0#8]).wf = false := by decide
theorem test_wf_refuses_five_bytes : (Presented.transfer .request 0#1 [0#8, 0#8, 0#8, 0#8, 0#8]).wf = false := by decide
theorem test_wf_accepts_four_bytes : (Presented.transfer .reply 1#1 [0#8, 0#8, 0#8, 0#8]).wf = true := by decide

/-! ## Decoding: a word for each constructor, written out from R44 and R46 to R55 -/

theorem test_decode_crc8 : decodeTableWord 8 0b1000 = some (.crc8 1#1 0#32 0#16) := by decide
theorem test_decode_crcchk : decodeTableWord 8 0b0001 = some (.crcchk 0#1 0#32 0#16) := by decide
theorem test_decode_encr : decodeTableWord 8 0b0010 = some (.encr 0#1 0#32 0#16) := by decide
theorem test_decode_encw_with_operands :
    decodeTableWord 56 0x5FFF0000012303 = some (.encw 0#1 0x123#32 0x5FFF#16) := by decide
theorem test_decode_decreq : decodeTableWord 8 0b1100 = some (.decreq 1#1 0#32 0#16) := by decide
theorem test_decode_decrep : decodeTableWord 8 0b0101 = some (.decrep 0#1 0#32 0#16) := by decide
theorem test_decode_reserved_110 : decodeTableWord 8 0b1110 = some (.reservedOp110 1#1 0#32 0#16) := by decide
theorem test_decode_reserved_111 : decodeTableWord 8 0b0111 = some (.reservedOp111 0#1 0#32 0#16) := by decide
/-- crc 0x6C, addrField 0100100, R/W 0, don't-care 1111111111111, low 011 (vector 2.5.7). -/
theorem test_decode_read_request : decode (.transfer .request 1#1 [0x6C#8, 0x48#8, 0xFF#8, 0xFB#8]) =
    .ok (.frameReadRequest 1#1 0x6C#8 0b0100100#7 0b1111111111111#13 0b011#3) := by decide
/-- crc 0x6A, addrField 1000000, R/W 1, value 0x8001 (vector 2.5.6). -/
theorem test_decode_write_request : decode (.transfer .request 0#1 [0x6A#8, 0x81#8, 0x80#8, 0x01#8]) =
    .ok (.frameWriteRequest 0#1 0x6A#8 0b1000000#7 0x8001#16) := by decide
/-- crc 0x56, mode 00, status 11111, echo 0, data 0xABCD (vector 2.6.6). -/
theorem test_decode_reply16 : decode (.transfer .reply 1#1 [0x56#8, 0x3E#8, 0xAB#8, 0xCD#8]) =
    .ok (.frameStatusReply16 1#1 0x56#8 0b11111#5 0#1 0xABCD#16) := by decide
/-- crc 0x8F, mode 01, data 0x2ABCDE (vector 2.6.8). -/
theorem test_decode_reply22 : decode (.transfer .reply 1#1 [0x8F#8, 0x6A#8, 0xBC#8, 0xDE#8]) =
    .ok (.frameStatusReply22 1#1 0x8F#8 0x2ABCDE#22) := by decide
/-- crc 0x16, mode 10, bits 21:8 all ones, bitmap 0xA5 (vector 2.6.11). -/
theorem test_decode_critical : decode (.transfer .reply 1#1 [0x16#8, 0xBF#8, 0xFF#8, 0xA5#8]) =
    .ok (.frameCriticalFault 1#1 0x16#8 0x3FFF#14 0xA5#8) := by decide
/-- crc 0x36, mode 11, raw 0x123456 (vector 2.6.15). -/
theorem test_decode_reserved_mode : decode (.transfer .reply 1#1 [0x36#8, 0xD2#8, 0x34#8, 0x56#8]) =
    .ok (.frameReservedReplyMode11 1#1 0x36#8 0x123456#22) := by decide
theorem test_decode_rejects_three_bytes :
    decode (.transfer .reply 1#1 [0#8, 0#8, 0#8]) = .error (.notFourBytes 3) := by decide
/-- 2.8: the bytes of 0x2B495FFF. -/
theorem test_bytes_of_frame : bytesOfFrame 0x2B495FFF#32 = [0x2B#8, 0x49#8, 0x5F#8, 0xFF#8] := by decide
/-- 2.8: reassembly of E3 00 12 34. -/
theorem test_frame_of_bytes : frameOfBytes [0xE3#8, 0x00#8, 0x12#8, 0x34#8] = some 0xE3001234#32 := by decide

/-! ## Assembler lines: every operand is truncated to its column (R22, R59) -/

theorem test_line_crc8_truncates : assemble [] (.crc8 (.lit 0xFF123456)) =
    .ok { op := 0#3, chk := 0#1, a := 0x00123456#32, b := 0#16 } := by decide
theorem test_line_crcchk_truncates : assemble [] (.crcchk (.lit 0x1BA480003)) =
    .ok { op := 1#3, chk := 0#1, a := 0xBA480003#32, b := 0#16 } := by decide
theorem test_line_encr_truncates : assemble [] (.encr (.lit 0x523)) =
    .ok { op := 2#3, chk := 0#1, a := 0x123#32, b := 0#16 } := by decide
theorem test_line_encw_truncates : assemble [] (.encw (.lit 0x520) (.lit 0x15FFF)) =
    .ok { op := 3#3, chk := 0#1, a := 0x120#32, b := 0x5FFF#16 } := by decide
/-- A frame in the columns of 10 and 16 bits: bits 9:0 of the one, 15:0 of the other (log entry 16). -/
theorem test_line_encw_references : assemble [.frame 0xBA480523#32, .frame 0x2B495FFF#32] (.encw (.ref 1) (.ref 2)) =
    .ok { op := 3#3, chk := 0#1, a := 0x123#32, b := 0x5FFF#16 } := by decide
/-- Program 3.1, step 1, with an address one bit too wide: the step runs `encr 0x123`. -/
theorem test_step_line_wide_literal :
    delivered (step (about [.line (.encr (.lit 0x523))])) = some (.frame 0xBA480003#32) := by decide +kernel

/-! ## The CRC -/

/-- 2.1: the catalogue's check value over the 9 bytes "123456789". -/
theorem test_crc_check_value : crcRounds 0x1D#8 0x313233343536373839#72 72 0xFF#8 ^^^ 0xFF#8 = 0x4B#8 := by
  decide +kernel
/-- 2.1: with ignored bits set. -/
theorem test_crc8_ignores_upper_bits :
    delivered (exec (.crc8 1#1 0xFF123456#32 0xFFFF#16) State.reset) = some (.crc 0x96#8) := by decide +kernel
/-- 2.1: the alternative profile. -/
theorem test_crc8_zero_profile :
    delivered (exec (.crc8 0#1 0x00ABCDEF#32 0#16) zeroProfile) = some (.crc 0x61#8) := by decide +kernel
/-- 2.2. -/
theorem test_crcchk_agrees :
    delivered (exec (.crcchk 0#1 0xBA480003#32 0#16) State.reset) = some (.crcChk true 0xBA#8 0xBA#8) := by
  decide +kernel
/-- 2.2: bit 31 flipped. -/
theorem test_crcchk_detects_a_crc_bit :
    delivered (exec (.crcchk 0#1 0x0F6ABCDE#32 0#16) State.reset) = some (.crcChk false 0x0F#8 0x8F#8) := by
  decide +kernel

/-! ## Requests -/

/-- 2.3: bits 31:10 ignored. -/
theorem test_encr_ignores_upper_bits :
    delivered (exec (.encr 1#1 0xFFFFFD23#32 0xFFFF#16) State.reset) = some (.frame 0xBA480003#32) := by decide +kernel
/-- 2.3: the highest address. -/
theorem test_encr_highest_address :
    delivered (exec (.encr 0#1 0x3FF#32 0#16) State.reset) = some (.frame 0x23FE0007#32) := by decide +kernel
/-- 2.4: Drop. -/
theorem test_encw_drops_low_bits :
    delivered (exec (.encw 0#1 0x123#32 0x5FFF#16) State.reset) = some (.frame 0x2B495FFF#32) := by decide +kernel
/-- 2.4: Reject. -/
theorem test_encw_rejects_low_bits :
    delivered (exec (.encw 0#1 0x123#32 0x5FFF#16) rejecting) = some (.err (.writeAddrLow 0x123#10)) := by
  decide +kernel
/-- 2.5.7: bits 15:3 of a read are don't-care for the address. -/
theorem test_decreq_read_dont_care : delivered (exec (.decreq 1#1 0x6C48FFFB#32 0#16) State.reset) =
    some (.request 0#1 0x24#7 0xFFFB#16 0x123#10 0x6C#8 0x6C#8) := by decide +kernel
/-- 2.5.5: the low address bits of a write are zero. -/
theorem test_decreq_write : delivered (exec (.decreq 1#1 0x7AFFFFFF#32 0#16) State.reset) =
    some (.request 1#1 0x7F#7 0xFFFF#16 0x3F8#10 0x7A#8 0x7A#8) := by decide +kernel
/-- 2.5.9: unchecked, with a wrong CRC. -/
theorem test_frame_read_unchecked :
    delivered (exec (.frameReadRequest 0#1 0xBA#8 0x24#7 0#13 2#3) State.reset) =
      some (.request 0#1 0x24#7 0x0002#16 0x122#10 0xBA#8 0xA7#8) := by decide +kernel
/-- 2.5.4. -/
theorem test_frame_write : delivered (exec (.frameWriteRequest 1#1 0x2B#8 0x24#7 0x5FFF#16) State.reset) =
    some (.request 1#1 0x24#7 0x5FFF#16 0x120#10 0x2B#8 0x2B#8) := by decide +kernel

/-! ## Replies -/

/-- 2.6.26: B ignored. -/
theorem test_decrep_status16 : delivered (exec (.decrep 1#1 0x6C011234#32 0xFFFF#16) State.reset) =
    some (.status16 1#1 0x1234#16 0x6C#8 0x6C#8) := by decide +kernel
/-- 2.6.17: a wrong CRC comes before the reserved mode. -/
theorem test_decrep_mismatch_first : delivered (exec (.decrep 1#1 0x11C00000#32 0#16) State.reset) =
    some (.err (.crcMismatch 0x11#8 0x51#8)) := by decide +kernel
/-- 2.6.23, under a configuration whose STATUS_CLASS is known: entry 30 is the class of status 31. -/
theorem test_frame_reply16_device_status :
    delivered (exec (.frameStatusReply16 0#1 0x57#8 0b11111#5 0#1 0xABCD#16) classified) =
      some (.err (.deviceStatus 0b11111#5 .internalBusFault 0#1 0xABCD#16 0x57#8 0x56#8)) := by decide +kernel
/-- 2.6.10. -/
theorem test_frame_reply22 : delivered (exec (.frameStatusReply22 1#1 0xBA#8 0x3FFFFF#22) State.reset) =
    some (.reply22 0x3FFFFF#22 0xBA#8 0xBA#8) := by decide +kernel
/-- 2.6.11. -/
theorem test_frame_critical : delivered (exec (.frameCriticalFault 1#1 0x16#8 0x3FFF#14 0xA5#8) State.reset) =
    some (.critical 0xA5#8 0x16#8 0x16#8) := by decide +kernel
/-- 2.6.15. -/
theorem test_frame_reserved_mode : delivered (exec (.frameReservedReplyMode11 1#1 0x36#8 0x123456#22) State.reset) =
    some (.err (.reservedMode 0x123456#22 0x36#8 0x36#8)) := by decide +kernel

/-! ## Steps -/

/-- 2.7: word 0x7, through a step. -/
theorem test_step_reserved_111 :
    delivered (step (about [.present (.command { op := 7#3, chk := 0#1, a := 0x12345678#32, b := 0xABCD#16 })])) =
      some (.err (.illegalOp 0b111#3)) := by decide +kernel
/-- 2.7: word 0xE. -/
theorem test_step_reserved_110 :
    delivered (step (about [.present (.command { op := 6#3, chk := 1#1, a := 0x12345678#32, b := 0xABCD#16 })])) =
      some (.err (.illegalOp 0b110#3)) := by decide +kernel
/-- Program 3.1, step 4: `decreq %1` reads the frame of the first outcome. -/
theorem test_step_line_reference :
    delivered (step ((answered (.frame 0xBA480003#32)).withPending [.line (.decreq (.ref 1))])) =
      some (.request 0#1 0x24#7 0x0003#16 0x123#10 0xBA#8 0xBA#8) := by decide +kernel
/-- Program 3.2: a reference to an outcome that is no frame. -/
theorem test_line_without_frame :
    step ((answered (.err (.writeAddrLow 0x123#10))).withPending [.line (.decreq (.ref 1))]) =
      .refused (.noSuchFrame 1) := rfl
/-- R59, R45: `crc8 %1` sets the bits that CRC8 ignores to zero. -/
theorem test_line_crc8_reference : assemble [.frame 0xBA480003#32] (.crc8 (.ref 1)) =
    .ok { op := 0#3, chk := 0#1, a := 0x00480003#32, b := 0#16 } := by decide
/-- R25. -/
theorem test_read_output_faults : step (about [.readOutput]) = .fault .outcomeUnset := rfl
theorem test_short_transfer_refused :
    step (about [.present (.transfer .reply 1#1 [0#8])]) = .refused (.notAFrame 1) := rfl

/-! ## Witnesses: the hypotheses of each statement can be met -/

theorem witness_StepRunsThePresentedInstruction :
    (about [.present (.command { op := 0#3, chk := 0#1, a := 0x123456#32, b := 0#16 })]).pending =
      [.present (.command { op := 0#3, chk := 0#1, a := 0x123456#32, b := 0#16 })] ∧
    decode (.command { op := 0#3, chk := 0#1, a := 0x123456#32, b := 0#16 }) = .ok (.crc8 0#1 0x123456#32 0#16) := by
  decide
theorem witness_StepRunsTheAssembledLine :
    (about [.line (.encr (.lit 0x3FF))]).pending = [.line (.encr (.lit 0x3FF))] ∧
    assemble State.reset.observed (.encr (.lit 0x3FF)) =
      .ok { op := 2#3, chk := 0#1, a := 0x3FF#32, b := 0#16 } := by decide
theorem witness_TableWordIsRunAsDecoded :
    decodeTableWord 32 0x00C00000 = some (.frameReservedReplyMode11 0#1 0#8 0#22) := by decide
theorem witness_EndOfRunIsRefusedByName : State.reset.pending = [] := rfl
theorem witness_ReadingTheOutputBeforeACommandFaults :
    (about [.readOutput]).pending = [.readOutput] ∧ (about [.readOutput]).output = none := ⟨rfl, rfl⟩
theorem witness_ReadingTheOutputChangesNothing :
    ((answered (.crc 0xF1#8)).withPending [.readOutput]).pending = [.readOutput] ∧
    ((answered (.crc 0xF1#8)).withPending [.readOutput]).output = some (.crc 0xF1#8) := ⟨rfl, rfl⟩
theorem witness_CommandDuringResetIsRefused :
    (about [.presentInReset (.transfer .reply 0#1 [])]).pending = [.presentInReset (.transfer .reply 0#1 [])] := rfl
theorem witness_EncodeOfDecodeIsWhatWasPresented :
    decode (.transfer .request 0#1 [0#8, 0#8, 0#8, 0#8]) = .ok (.frameReadRequest 0#1 0#8 0#7 0#13 0#3) := by decide
theorem witness_AssemblerLinesStandForTheirCommands :
    ([.frame 0xBA480003#32, .frame 0x2B495FFF#32] : List CodecOutcome)[0]? = some (.frame 0xBA480003#32) ∧
    ([.frame 0xBA480003#32, .frame 0x2B495FFF#32] : List CodecOutcome)[1]? = some (.frame 0x2B495FFF#32) := by decide
/-- `%0`; `%1` of an error outcome; `%2` of an outcome that is not there yet. -/
theorem witness_AssemblerRejectsByName : ∀ k ∈ [0, 1, 2], ∀ n f, k = n + 1 →
    ([.err (.writeAddrLow 0x123#10)] : List CodecOutcome)[n]? ≠ some (.frame f) := by
  rintro k hk n f rfl
  rcases n with _ | _ | n <;> simp at hk ⊢
/-- The other operand of `encw` exists, and so do all operands of a line that assembles. -/
theorem witness_AssemblerRejectsByName_existing :
    ([.frame 0xBA480003#32] : List CodecOutcome)[0]? = some (.frame 0xBA480003#32) ∧
    ∀ k, .ref k ∈ (AsmLine.encw (.ref 1) (.lit 0)).operands →
      ∃ n f, k = n + 1 ∧ ([.frame 0xBA480003#32] : List CodecOutcome)[n]? = some (.frame f) := by
  simp [AsmLine.operands]
/-- Program 3.2 under Reject: the fourth outcome is an error, and the line is `decreq %4` (here as the first). -/
theorem witness_LinesAreRefusedOnlyForAMissingFrame :
    ((answered (.err (.writeAddrLow 0x123#10))).withPending [.line (.decreq (.ref 1))]).pending =
      [.line (.decreq (.ref 1))] ∧ .ref 1 ∈ (AsmLine.decreq (.ref 1)).operands ∧
    ∀ n f, 1 = n + 1 → (answered (.err (.writeAddrLow 0x123#10))).observed[n]? ≠ some (.frame f) := by
  refine ⟨rfl, by decide, fun n f h => ?_⟩
  obtain rfl : n = 0 := by omega
  exact nofun
theorem witness_CrcAlgebraicLaws_defaults :
    State.reset.cfg.crcPoly = 0x1D#8 ∧ State.reset.cfg.crcInit = 0xFF#8 ∧ State.reset.cfg.crcXorOut = 0xFF#8 :=
  ⟨rfl, rfl, rfl⟩
theorem witness_CrcAlgebraicLaws_body : (0xBA480003#32 : Frame).extractLsb' 0 24 = 0x480003#24 := by decide
theorem witness_ErrorPattern_one_bit : ErrorPattern 0x80000000#32 := .inl ⟨31, by decide, by decide⟩
theorem witness_ErrorPattern_two_bits : ErrorPattern 0x80000001#32 :=
  .inr (.inl ⟨31, by decide, 0, by decide, by decide, by decide⟩)
theorem witness_ErrorPattern_burst : ErrorPattern 0x00FF0000#32 :=
  .inr (.inr ⟨16, by decide, 0xFF#8, by decide, by decide⟩)
theorem witness_DefaultCrcDetectsShortErrors : State.reset.cfg.crcPoly = 0x1D#8 ∧
    ∃ t rx recomputed, exec (.crcchk 0#1 0xBA480003#32 0#16) State.reset = .next t ∧
      t.output = some (.crcChk true rx recomputed) :=
  ⟨rfl, _, 0xBA#8, 0xBA#8, rfl, by decide +kernel⟩
theorem witness_CrcchkReportsBothCrcs : (0xBA#8 : Byte) = (0xBA480003#32).extractLsb' 24 8 ∧
    0xBA#8 = crc8 State.reset.cfg ((0xBA480003#32).extractLsb' 0 24) := by decide +kernel
theorem witness_EncwSendsTheWriteRequest_drop : State.reset.cfg.writeAddrLowPolicy = .drop := rfl
theorem witness_EncwSendsTheWriteRequest_reject :
    rejecting.cfg.writeAddrLowPolicy = .reject ∧ (0x3F8#32).extractLsb' 0 3 = 0#3 := by decide
theorem witness_WriteAddrLowPolicyDecides :
    rejecting.cfg.writeAddrLowPolicy = .reject ∧ (0x3F9#32).extractLsb' 0 3 ≠ 0#3 := by decide
theorem witness_EncodedFramesPassTheCheck_encr : ∃ t, exec (.encr 0#1 0x123#32 0#16) State.reset = .next t ∧
    t.output = some (.frame 0xBA480003#32) := ⟨_, rfl, by decide +kernel⟩
theorem witness_EncodedFramesPassTheCheck_encw : ∃ t, exec (.encw 0#1 0x120#32 0x5FFF#16) State.reset = .next t ∧
    t.output = some (.frame 0x2B495FFF#32) := ⟨_, rfl, by decide +kernel⟩
/-- Vectors 2.5.1 (checked) and 2.5.11 (unchecked). -/
theorem witness_DecreqAnswersTheRequestFields :
    (0xBA480003#32).extractLsb' 24 8 = crc8 State.reset.cfg ((0xBA480003#32).extractLsb' 0 24) ∧
    (0#32).extractLsb' 24 8 ≠ crc8 State.reset.cfg ((0#32).extractLsb' 0 24) := by decide +kernel
/-- Vector 2.6.1. -/
theorem witness_DecrepAnswersStatus16 :
    (0x6C011234#32).extractLsb' 24 8 = crc8 State.reset.cfg ((0x6C011234#32).extractLsb' 0 24) ∧
    (0x6C011234#32).extractLsb' 22 2 = 0b00#2 ∧ (0x6C011234#32).extractLsb' 17 5 = 0b00000#5 := by decide +kernel
/-- Vector 2.6.5. -/
theorem witness_DecrepReportsADeviceStatus :
    (0x7D030000#32).extractLsb' 24 8 = crc8 State.reset.cfg ((0x7D030000#32).extractLsb' 0 24) ∧
    (0x7D030000#32).extractLsb' 22 2 = 0b00#2 ∧ (0x7D030000#32).extractLsb' 17 5 ≠ 0b00000#5 := by decide +kernel
/-- Vector 2.6.8. -/
theorem witness_DecrepAnswersReply22 :
    (0x8F6ABCDE#32).extractLsb' 24 8 = crc8 State.reset.cfg ((0x8F6ABCDE#32).extractLsb' 0 24) ∧
    (0x8F6ABCDE#32).extractLsb' 22 2 = 0b01#2 := by decide +kernel
/-- Vector 2.6.12. -/
theorem witness_DecrepAnswersCritical :
    (0x2C800001#32).extractLsb' 24 8 = crc8 State.reset.cfg ((0x2C800001#32).extractLsb' 0 24) ∧
    (0x2C800001#32).extractLsb' 22 2 = 0b10#2 := by decide +kernel
/-- Vector 2.6.14. -/
theorem witness_DecrepReportsTheReservedMode :
    (0x51C00000#32).extractLsb' 24 8 = crc8 State.reset.cfg ((0x51C00000#32).extractLsb' 0 24) ∧
    (0x51C00000#32).extractLsb' 22 2 = 0b11#2 := by decide +kernel
/-- Vector 2.6.19. -/
theorem witness_CheckedDecodersReportACrcMismatch :
    (0#32).extractLsb' 24 8 ≠ crc8 State.reset.cfg ((0#32).extractLsb' 0 24) := by decide +kernel
/-- The bodies of vectors 2.5.1 and 2.5.6. -/
theorem witness_RequestFrameRowsAnswerTheirFields :
    0xBA#8 = crc8 State.reset.cfg (0x24#7 ++ 0#1 ++ 0#13 ++ 3#3) ∧
    0x6A#8 = crc8 State.reset.cfg (0x40#7 ++ 1#1 ++ 0x8001#16) := by decide +kernel
/-- The bodies of vectors 2.6.1, 2.6.9, 2.6.13 and 2.6.14. -/
theorem witness_ReplyFrameRowsAnswerTheirFields :
    0x6C#8 = crc8 State.reset.cfg (0b00#2 ++ 0b00000#5 ++ 1#1 ++ 0x1234#16) ∧
    0x91#8 = crc8 State.reset.cfg (0b01#2 ++ 0#22) ∧
    0x31#8 = crc8 State.reset.cfg (0b10#2 ++ 0#14 ++ 0#8) ∧
    0x51#8 = crc8 State.reset.cfg (0b11#2 ++ 0#22) := by decide +kernel
theorem witness_FrameRowsReportTheirErrors :
    0xBB#8 ≠ crc8 State.reset.cfg (0x24#7 ++ 0#1 ++ 0#13 ++ 3#3) ∧
    0x6B#8 ≠ crc8 State.reset.cfg (0x40#7 ++ 1#1 ++ 0x8001#16) ∧
    0x6D#8 ≠ crc8 State.reset.cfg (0b00#2 ++ 0b00000#5 ++ 1#1 ++ 0x1234#16) ∧
    0x90#8 ≠ crc8 State.reset.cfg (0b01#2 ++ 0#22) ∧
    0x30#8 ≠ crc8 State.reset.cfg (0b10#2 ++ 0#14 ++ 0#8) ∧
    0x50#8 ≠ crc8 State.reset.cfg (0b11#2 ++ 0#22) ∧
    0x7D#8 = crc8 State.reset.cfg (0b00#2 ++ 0b00001#5 ++ 1#1 ++ 0#16) := by decide +kernel
/-- The last address of each clause: mode 00 with status 0, mode 00 with status 31, modes 01, 10 and 11. -/
theorem witness_DecrepReadsARequestByItsAddressBits_modes :
    ((0x007#32).extractLsb' 8 2 = 0b00#2 ∧ (0x007#32).extractLsb' 3 5 = 0b00000#5) ∧
    ((0x0FF#32).extractLsb' 8 2 = 0b00#2 ∧ (0x0FF#32).extractLsb' 3 5 ≠ 0b00000#5) ∧
    (0x1FF#32).extractLsb' 8 2 = 0b01#2 ∧ (0x2FF#32).extractLsb' 8 2 = 0b10#2 ∧
    (0x3FF#32).extractLsb' 8 2 = 0b11#2 := by decide
theorem witness_DecrepReadsARequestByItsAddressBits_frames :
    ∀ a ∈ [0x007#32, 0x0FF#32, 0x1FF#32, 0x2FF#32, 0x3FF#32],
      (∃ t f, exec (.encr 0#1 a 0#16) State.reset = .next t ∧ t.output = some (.frame f)) ∧
      ∃ t f, exec (.encw 0#1 a 0#16) State.reset = .next t ∧ t.output = some (.frame f) :=
  fun _ _ => ⟨⟨_, _, rfl, rfl⟩, _, _, rfl, rfl⟩
theorem witness_RequestRoundTripLaws : (0x3F8#10).extractLsb' 0 3 = 0#3 ∧
    State.reset.cfg.writeAddrLowPolicy = .drop ∧ (0x123#10).extractLsb' 0 3 ≠ 0#3 := by decide
theorem witness_CorruptedRequestsAreNotDecoded : State.reset.cfg.crcPoly = 0x1D#8 ∧ ErrorPattern 1#32 ∧
    ∃ t, exec (.encr 0#1 0x123#32 0#16) State.reset = .next t ∧ t.output = some (.frame 0xBA480003#32) :=
  ⟨rfl, .inl ⟨0, by decide, by decide⟩, _, rfl, by decide +kernel⟩
/-- A write request, and a burst of 8 positions across the CRC and the body. -/
theorem witness_CorruptedRequestsAreNotDecoded_write : ErrorPattern 0x0FF00000#32 ∧
    ∃ t, exec (.encw 0#1 0x120#32 0x5FFF#16) State.reset = .next t ∧ t.output = some (.frame 0x2B495FFF#32) :=
  ⟨.inr (.inr ⟨20, by decide, 0xFF#8, by decide, by decide⟩), _, rfl, by decide +kernel⟩
/-- A read request, and two bits far apart. -/
theorem witness_CorruptedRequestsAreNotDecoded_two_bits : ErrorPattern 0x80000001#32 ∧
    ∃ t, exec (.encr 0#1 0x3FF#32 0#16) State.reset = .next t ∧ t.output = some (.frame 0x23FE0007#32) :=
  ⟨witness_ErrorPattern_two_bits, _, rfl, by decide +kernel⟩
/-- A command for the cause of each error row: words 0x6 and 0xF of vectors 2.7, a rejected write of 2.4, vectors 2.6.16,
2.6.15 (checked) and 2.6.22 (unchecked), 2.6.6 (checked) and 2.6.23 (unchecked). -/
theorem witness_EachErrorHasExactlyItsCause :
    (∃ t, exec (decodeCommand { op := 6#3, chk := 0#1, a := 0x12345678#32, b := 0xABCD#16 }) State.reset = .next t ∧
      t.output = some (.err (.illegalOp 6#3))) ∧
    (∃ t, exec (decodeCommand { op := 7#3, chk := 1#1, a := 0x12345678#32, b := 0xABCD#16 }) State.reset = .next t ∧
      t.output = some (.err (.illegalOp 7#3))) ∧
    (∃ t, exec (decodeCommand { op := 3#3, chk := 0#1, a := 0x123#32, b := 0x5FFF#16 }) rejecting = .next t ∧
      t.output = some (.err (.writeAddrLow 0x123#10))) ∧
    (∃ t, exec (decodeCommand { op := 5#3, chk := 1#1, a := 0x6C011235#32, b := 0#16 }) State.reset = .next t ∧
      t.output = some (.err (.crcMismatch 0x6C#8 0x71#8))) ∧
    (∃ t, exec (decodeCommand { op := 5#3, chk := 1#1, a := 0x36D23456#32, b := 0#16 }) State.reset = .next t ∧
      t.output = some (.err (.reservedMode 0x123456#22 0x36#8 0x36#8))) ∧
    (∃ t, exec (decodeCommand { op := 5#3, chk := 0#1, a := 0x11C00000#32, b := 0#16 }) State.reset = .next t ∧
      t.output = some (.err (.reservedMode 0#22 0x11#8 0x51#8))) ∧
    (∃ t, exec (decodeCommand { op := 5#3, chk := 1#1, a := 0x563EABCD#32, b := 0#16 }) classified = .next t ∧
      t.output = some (.err (.deviceStatus 31#5 .internalBusFault 0#1 0xABCD#16 0x56#8 0x56#8))) ∧
    ∃ t, exec (decodeCommand { op := 5#3, chk := 0#1, a := 0x573EABCD#32, b := 0#16 }) classified = .next t ∧
      t.output = some (.err (.deviceStatus 31#5 .internalBusFault 0#1 0xABCD#16 0x57#8 0x56#8)) := by
  refine ⟨⟨_, rfl, ?_⟩, ⟨_, rfl, ?_⟩, ⟨_, rfl, ?_⟩, ⟨_, rfl, ?_⟩, ⟨_, rfl, ?_⟩, ⟨_, rfl, ?_⟩, ⟨_, rfl, ?_⟩, _, rfl, ?_⟩
  all_goals decide +kernel
/-- Vectors 2.6.17 and 2.6.18: two causes at once, and CrcMismatch comes first. -/
theorem witness_FirstErrorCauseWins :
    (0x11C00000#32).extractLsb' 24 8 ≠ crc8 State.reset.cfg ((0x11C00000#32).extractLsb' 0 24) ∧
    (0x11C00000#32).extractLsb' 22 2 = 0b11#2 ∧
    (0x573EABCD#32).extractLsb' 24 8 ≠ crc8 State.reset.cfg ((0x573EABCD#32).extractLsb' 0 24) ∧
    (0x573EABCD#32).extractLsb' 22 2 = 0b00#2 ∧ (0x573EABCD#32).extractLsb' 17 5 ≠ 0b00000#5 := by decide +kernel
theorem witness_ResultCodesSixAndSevenAreNeverProduced :
    ∃ t, exec (.reservedOp110 0#1 0#32 0#16) State.reset = .next t := ⟨_, rfl⟩
/-- Two commands that differ in every bit CRC8 ignores. -/
theorem witness_IgnoredBitsAffectNothing :
    ({ op := 0#3, chk := 0#1, a := 0x00123456#32, b := 0#16 } : Command).op =
      ({ op := 0#3, chk := 1#1, a := 0xFF123456#32, b := 0xFFFF#16 } : Command).op ∧
    (0x00123456#32).extractLsb' 0 24 = (0xFF123456#32).extractLsb' 0 24 := by decide
theorem witness_EveryInstructionAnswersWithoutHistory : (answered (.crc 0#8)).cfg = State.reset.cfg := rfl
theorem witness_DecrepDependsOnCrcAndStatusClassOnly :
    State.reset.cfg.crcPoly = rejecting.cfg.crcPoly ∧ State.reset.cfg.crcInit = rejecting.cfg.crcInit ∧
    State.reset.cfg.crcXorOut = rejecting.cfg.crcXorOut := ⟨rfl, rfl, rfl⟩
theorem witness_ConfigurationIsConstantForARun : ∃ t, core.run 1 (about [.pulseReset]) = .next t := ⟨_, rfl⟩
theorem witness_RunObservesOneOutcomeForEachCommand :
    (about [.present (.command { op := 6#3, chk := 0#1, a := 0#32, b := 0#16 }), .readOutput]).pending =
      [({ op := 6#3, chk := 0#1, a := 0#32, b := 0#16 } : Command)].map (fun c => .present (.command c)) ++
        [.readOutput] := rfl
theorem witness_ReorderedCommandsKeepTheirOutcomes :
    let c : Command := { op := 6#3, chk := 0#1, a := 0#32, b := 0#16 }
    let d : Command := { op := 7#3, chk := 0#1, a := 0#32, b := 0#16 }
    [c, d].Perm [d, c] ∧ (about [.present (.command c), .present (.command d)]).cfg = State.reset.cfg ∧
    (∃ t, core.run 2 (about [.present (.command c), .present (.command d)]) = .next t) ∧
    ∃ t, core.run 2 (about [.present (.command d), .present (.command c)]) = .next t :=
  ⟨List.Perm.swap _ _ _, rfl, ⟨_, rfl⟩, ⟨_, rfl⟩⟩
theorem witness_EveryStepKeepsTheInvariant : (about [.pulseReset]).Inv ∧ ∃ t, step (about [.pulseReset]) = .next t :=
  ⟨⟨rfl, fun _ h => nomatch h⟩, _, rfl⟩

end Sys2Proof.Tests
end

section
/-! PROOFS. The host's read of the outcome output (R25). -/

namespace Sys2Proof.Machine

theorem step_of_pending_cons {s : State} {act : HostAction} {rest : List HostAction}
    (hp : s.pending = act :: rest) : step s = runAction act (s.withPending rest) := by
  simp [step, hp]

theorem readOutput_of_output_none {s : State} (ho : s.output = none) : readOutput s = .error .outcomeUnset := by
  obtain ⟨-, hread⟩ | ⟨o, hsome, -⟩ := readOutput_cases s
  · exact hread
  · simp [ho] at hsome

theorem runAction_readOutput_of_error {s : State} {r : Fault} (hr : readOutput s = .error r) :
    runAction .readOutput s = .fault r := by
  simp [runAction, hr]

/-- Settles O5: taking the action from the list leaves the output unset, so the step is the fault of the read. -/
theorem readingTheOutputBeforeACommandFaults : Obligations.ReadingTheOutputBeforeACommandFaults := by
  refine ⟨rfl, fun s rest hp ho => ⟨readOutput_of_output_none ho, ?_⟩⟩
  have hread : readOutput (s.withPending rest) = .error .outcomeUnset := readOutput_of_output_none ho
  rw [step_of_pending_cons hp]
  exact runAction_readOutput_of_error hread

end Sys2Proof.Machine
end

section
/-! PROOFS. A frame and its four bytes on the wire (R29, R30). -/

namespace Sys2Proof.Machine

/-- Each byte sent starts where the next one ends, so the four join to bits 31 down to 0. -/
@[simp] theorem frameOfBytes_bytesOfFrame (f : Frame) : frameOfBytes (bytesOfFrame f) = some f := by
  have joined : f.extractLsb' 24 8 ++ f.extractLsb' 16 8 ++ f.extractLsb' 8 8 ++ f.extractLsb' 0 8 = f := by
    rw [BitVec.extractLsb'_append_extractLsb'_eq_extractLsb' (by decide),
      BitVec.extractLsb'_append_extractLsb'_eq_extractLsb' (by decide),
      BitVec.extractLsb'_append_extractLsb'_eq_extractLsb' (by decide)]
    exact BitVec.extractLsb'_eq_self
  exact congrArg some joined

/-- The byte at bit 0 is the last one received; each higher byte is at bit 0 once the bytes after it are dropped. -/
@[simp] theorem bytesOfFrame_append (rx0 rx1 rx2 rx3 : Byte) :
    bytesOfFrame (rx0 ++ rx1 ++ rx2 ++ rx3) = [rx0, rx1, rx2, rx3] := by
  have dropLast {w : Nat} (hi : BitVec w) (lo : Byte) (start : Nat) :
      (hi ++ lo).extractLsb' (start + 8) 8 = hi.extractLsb' start 8 :=
    BitVec.extractLsb'_append_eq_of_le (Nat.le_add_left 8 start)
  have byte0 : (rx0 ++ rx1 ++ rx2 ++ rx3).extractLsb' 24 8 = rx0 := by
    rw [dropLast _ _ 16, dropLast _ _ 8, dropLast _ _ 0]
    exact BitVec.extractLsb'_eq_self
  have byte1 : (rx0 ++ rx1 ++ rx2 ++ rx3).extractLsb' 16 8 = rx1 := by
    rw [dropLast _ _ 8, dropLast _ _ 0]
    exact BitVec.extractLsb'_append_eq_right
  have byte2 : (rx0 ++ rx1 ++ rx2 ++ rx3).extractLsb' 8 8 = rx2 := by
    rw [dropLast _ _ 0]
    exact BitVec.extractLsb'_append_eq_right
  have byte3 : (rx0 ++ rx1 ++ rx2 ++ rx3).extractLsb' 0 8 = rx3 := BitVec.extractLsb'_append_eq_right
  rw [bytesOfFrame, byte0, byte1, byte2, byte3]

/-- Settles O16: the bytes and the joined frame are the definitions' own, and the two round trips undo each other. -/
theorem framesTravelMostSignificantByteFirst : Obligations.FramesTravelMostSignificantByteFirst :=
  ⟨fun f => ⟨rfl, frameOfBytes_bytesOfFrame f⟩,
    fun rx0 rx1 rx2 rx3 => ⟨rfl, bytesOfFrame_append rx0 rx1 rx2 rx3⟩⟩

end Sys2Proof.Machine
end

section
/-! PROOFS. Each operation selector and the instruction it selects (R44). -/

namespace Sys2Proof

theorem selector_cases (op : BitVec 3) :
    op = 0b000#3 ∨ op = 0b001#3 ∨ op = 0b010#3 ∨ op = 0b011#3 ∨
      op = 0b100#3 ∨ op = 0b101#3 ∨ op = 0b110#3 ∨ op = 0b111#3 := by
  revert op; decide

variable (chk : Bit) (a : BitVec 32) (b : BitVec 16)

@[simp] theorem decodeCommand_000 : decodeCommand ⟨0b000#3, chk, a, b⟩ = .crc8 chk a b := rfl
@[simp] theorem decodeCommand_001 : decodeCommand ⟨0b001#3, chk, a, b⟩ = .crcchk chk a b := rfl
@[simp] theorem decodeCommand_010 : decodeCommand ⟨0b010#3, chk, a, b⟩ = .encr chk a b := rfl
@[simp] theorem decodeCommand_011 : decodeCommand ⟨0b011#3, chk, a, b⟩ = .encw chk a b := rfl
@[simp] theorem decodeCommand_100 : decodeCommand ⟨0b100#3, chk, a, b⟩ = .decreq chk a b := rfl
@[simp] theorem decodeCommand_101 : decodeCommand ⟨0b101#3, chk, a, b⟩ = .decrep chk a b := rfl
@[simp] theorem decodeCommand_110 : decodeCommand ⟨0b110#3, chk, a, b⟩ = .reservedOp110 chk a b := rfl
@[simp] theorem decodeCommand_111 : decodeCommand ⟨0b111#3, chk, a, b⟩ = .reservedOp111 chk a b := rfl

end Sys2Proof
end

section
/-! PROOFS. The fields of a sealed frame (R46), and of the bodies and operands it is made of. -/

namespace Sys2Proof.Machine

theorem addrUpper_operandAddr (a : BitVec 32) : addrUpper (operandAddr a) = a.extractLsb' 3 7 :=
  BitVec.extractLsb'_extractLsb'_of_le (by decide)

theorem addrLower_operandAddr (a : BitVec 32) : addrLower (operandAddr a) = a.extractLsb' 0 3 :=
  BitVec.extractLsb'_extractLsb'_of_le (by decide)

@[simp] theorem frameCrc_frameOf (crc : Byte) (body : Body) : frameCrc (frameOf crc body) = crc :=
  BitVec.extractLsb'_append_eq_left

@[simp] theorem frameBody_frameOf (crc : Byte) (body : Body) : frameBody (frameOf crc body) = body :=
  BitVec.extractLsb'_append_eq_right

/-- R67, R68: an encoder's frame carries the CRC of its own body. -/
theorem frameCrc_sealFrame (cfg : Config) (body : Body) :
    frameCrc (sealFrame cfg body) = crc8 cfg (frameBody (sealFrame cfg body)) := by
  simp [sealFrame]

/-- A field that lies in bits 23:0 of a frame is that field of its body. -/
theorem extractLsb'_frameOf (crc : Byte) (body : Body) {lo len : Nat} (h : lo + len ≤ 24) :
    (frameOf crc body).extractLsb' lo len = body.extractLsb' lo len :=
  BitVec.extractLsb'_append_eq_of_add_le h

section
variable (crc : Byte) (addrField : BitVec 7) (value : BitVec 16)

@[simp] theorem frameAddrField_writeBody : frameAddrField (frameOf crc (writeBody addrField value)) = addrField := by
  rw [frameAddrField, extractLsb'_frameOf _ _ (by decide), writeBody, BitVec.extractLsb'_append_eq_of_le (by decide)]
  exact BitVec.extractLsb'_append_eq_left

@[simp] theorem frameRw_writeBody : frameRw (frameOf crc (writeBody addrField value)) = 1#1 := by
  rw [frameRw, extractLsb'_frameOf _ _ (by decide), writeBody, BitVec.extractLsb'_append_eq_of_le (by decide)]
  exact BitVec.extractLsb'_append_eq_right

@[simp] theorem frameData_writeBody : frameData (frameOf crc (writeBody addrField value)) = value := by
  rw [frameData, extractLsb'_frameOf _ _ (by decide)]
  exact BitVec.extractLsb'_append_eq_right

end

end Sys2Proof.Machine
end

section
/-! PROOFS. What the commands answer, and which of their operand bits the answer reads (R45, R57, R65 to R70, R74). -/

namespace Sys2Proof.Machine

section
variable (s : State) (chk : Bit) (a : BitVec 32) (b : BitVec 16)

theorem exec_crc8 : exec (.crc8 chk a b) s = .next (s.deliver (.crc (crc8 s.cfg (operandMessage a)))) := rfl

theorem exec_crcchk : exec (.crcchk chk a b) s = .next (s.deliver
    (.crcChk (frameCrc a == crc8 s.cfg (frameBody a)) (frameCrc a) (crc8 s.cfg (frameBody a)))) := rfl

theorem exec_encr : exec (.encr chk a b) s = .next (s.deliver
    (.frame (sealFrame s.cfg (readBody (addrUpper (operandAddr a)) 0#13 (addrLower (operandAddr a)))))) := rfl

/-- R69: the policy turns this address away. -/
theorem exec_encw_of_rejected (h : s.cfg.writeAddrLowPolicy = .reject ∧ addrLower (operandAddr a) ≠ 0#3) :
    exec (.encw chk a b) s = .next (s.deliver (.err (.writeAddrLow (operandAddr a)))) :=
  if_pos h

/-- R68: the policy lets this address through. -/
theorem exec_encw_of_accepted (h : ¬(s.cfg.writeAddrLowPolicy = .reject ∧ addrLower (operandAddr a) ≠ 0#3)) :
    exec (.encw chk a b) s =
      .next (s.deliver (.frame (sealFrame s.cfg (writeBody (addrUpper (operandAddr a)) b)))) :=
  if_neg h

theorem exec_decreq : exec (.decreq chk a b) s = .next (s.deliver (requestOutcome s.cfg chk a)) := rfl

theorem exec_decrep : exec (.decrep chk a b) s = .next (s.deliver (replyOutcome s.cfg chk a)) := rfl

theorem exec_reservedOp110 : exec (.reservedOp110 chk a b) s = .next (s.deliver (.err (.illegalOp 0b110#3))) := rfl

theorem exec_reservedOp111 : exec (.reservedOp111 chk a b) s = .next (s.deliver (.err (.illegalOp 0b111#3))) := rfl

end

/-- The policy's guard reads the address alone, so both commands take the same branch. -/
theorem exec_encw_congr (s : State) (chk chk' : Bit) {a a' : BitVec 32} (b : BitVec 16)
    (haddr : operandAddr a = operandAddr a') : exec (.encw chk a b) s = exec (.encw chk' a' b) s := by
  by_cases h : s.cfg.writeAddrLowPolicy = .reject ∧ addrLower (operandAddr a) ≠ 0#3
  · rw [exec_encw_of_rejected s chk a b h, exec_encw_of_rejected s chk' a' b (haddr ▸ h), haddr]
  · rw [exec_encw_of_accepted s chk a b h, exec_encw_of_accepted s chk' a' b (haddr ▸ h), haddr]

/-- Settles O48: one case for each selector. Its row of R45 makes the operands that the answer reads equal. -/
theorem ignoredBitsAffectNothing : Obligations.IgnoredBitsAffectNothing := by
  rintro s ⟨op, chk, a, b⟩ ⟨op', chk', a', b'⟩ hop hcrc8 hcrcchk hencr hencw hdecreq hdecrep
  obtain rfl : op = op' := hop
  rcases selector_cases op with rfl | rfl | rfl | rfl | rfl | rfl | rfl | rfl
  · have hmsg : operandMessage a = operandMessage a' := hcrc8 rfl
    simp only [decodeCommand_000, exec_crc8, hmsg]
  · obtain rfl : a = a' := hcrcchk rfl
    simp only [decodeCommand_001, exec_crcchk]
  · have haddr : operandAddr a = operandAddr a' := hencr rfl
    simp only [decodeCommand_010, exec_encr, haddr]
  · obtain ⟨haddr, rfl⟩ : operandAddr a = operandAddr a' ∧ b = b' := hencw rfl
    simpa only [decodeCommand_011] using exec_encw_congr s chk chk' b haddr
  · obtain ⟨rfl, rfl⟩ : a = a' ∧ chk = chk' := hdecreq rfl
    simp only [decodeCommand_100, exec_decreq]
  · obtain ⟨rfl, rfl⟩ : a = a' ∧ chk = chk' := hdecrep rfl
    simp only [decodeCommand_101, exec_decrep]
  · simp only [decodeCommand_110, exec_reservedOp110]
  · simp only [decodeCommand_111, exec_reservedOp111]

/-- Settles O26: the policy's guard fails, and the frame is the sealed body of a write request. -/
theorem encwSendsTheWriteRequest : Obligations.EncwSendsTheWriteRequest := by
  intro s chk a b hpolicy
  have accepted : ¬(s.cfg.writeAddrLowPolicy = .reject ∧ addrLower (operandAddr a) ≠ 0#3) := by
    rw [addrLower_operandAddr]
    rintro ⟨hreject, hlow⟩
    rcases hpolicy with hdrop | hzero
    · simp [hdrop] at hreject
    · exact hlow hzero
  exact ⟨_, decodeCommand_011 chk a b, exec_encw_of_accepted s chk a b accepted, frameCrc_sealFrame _ _,
    (frameAddrField_writeBody _ _ b).trans (addrUpper_operandAddr a), frameRw_writeBody _ _ b,
    frameData_writeBody _ _ b⟩

/-- Settles O36: neither the selector's row nor its answer reads `chk` or an operand. -/
theorem reservedSelectorsAnswerIllegalOp : Obligations.ReservedSelectorsAnswerIllegalOp := by
  intro s chk a b
  exact ⟨decodeCommand_110 chk a b, decodeCommand_111 chk a b, exec_reservedOp110 s chk a b,
    exec_reservedOp111 s chk a b⟩

end Sys2Proof.Machine
end

section
/-! PROOFS. The loop of CRC8 and its table-driven form (R61, R62). -/

namespace Sys2Proof.Machine

/-- The message bits a run of rounds reads, from the highest down, are those a fold over their places reads. -/
theorem crcRounds_eq_foldl {n : Nat} (poly : Byte) (msg : BitVec n) (k : Nat) (c : Byte) :
    crcRounds poly msg k c =
      (List.range k).reverse.foldl (fun c i => crcRound poly c (msg.getLsbD i)) c := by
  induction k generalizing c with
  | zero => rfl
  | succ k ih => rw [crcRounds, ih, List.range_succ, List.reverse_concat, List.foldl_cons]

/-- Settles O19: the fold of the 24 rounds, each of which is the rule's loop body by definition. -/
theorem crc8IsTheBitSerialLoop : Obligations.Crc8IsTheBitSerialLoop := by
  intro cfg m
  have places : ((List.finRange 24).reverse >>= fun i => pure i.val) = (List.range 24).reverse := rfl
  rw [crc8, crcRounds_eq_foldl, places]
  simp only [crcRound]

/-- A round with message bit 0: the register, read as a polynomial, multiplied by `x` modulo `x^8 + poly`. -/
def timesX (poly c : Byte) : Byte := crcRound poly c false

theorem timesX_eq_ite (poly : Byte) :
    timesX poly = fun c => if c.getLsbD 7 then (c <<< 1) ^^^ poly else c <<< 1 := by
  funext c
  rw [timesX, crcRound, Bool.xor_false]

@[simp] theorem timesX_zero (poly : Byte) : timesX poly 0#8 = 0#8 := rfl

/-- Only the bits below `k` of a message reach its last `k` rounds. -/
theorem crcRounds_congr {n n' : Nat} (poly : Byte) {msg : BitVec n} {msg' : BitVec n'} {k : Nat}
    (h : ∀ i < k, msg.getLsbD i = msg'.getLsbD i) (c : Byte) : crcRounds poly msg k c = crcRounds poly msg' k c := by
  induction k generalizing c with
  | zero => rfl
  | succ k ih =>
    rw [crcRounds, crcRounds, h k (Nat.lt_succ_self k)]
    exact ih (fun i hi => h i (Nat.lt_succ_of_lt hi)) _

/-- `k` rounds of zero message bits multiply by `x^k`. -/
theorem crcRounds_zero_message {n : Nat} (poly : Byte) (k : Nat) (c : Byte) :
    crcRounds poly 0#n k c = (timesX poly)^[k] c := by
  induction k generalizing c with
  | zero => rfl
  | succ k ih => rw [crcRounds, ih, BitVec.getLsbD_zero, Function.iterate_succ_apply, timesX]

theorem crcTable_eq_iterate (poly x : Byte) : crcTable poly x = (timesX poly)^[8] x := crcRounds_zero_message poly 8 x

/-- The first `k` of `j + k` rounds read the message above its bit `j`. -/
theorem crcRounds_add {n : Nat} (poly : Byte) (msg : BitVec n) (j k : Nat) (c : Byte) :
    crcRounds poly msg (j + k) c = crcRounds poly msg j (crcRounds poly (msg >>> j) k c) := by
  induction k generalizing c with
  | zero => rfl
  | succ k ih => rw [← Nat.add_assoc, crcRounds, ih, crcRounds, BitVec.getLsbD_ushiftRight]

/-- A message bit acts on a round as the same bit at the top of the register does. -/
theorem timesX_xor (poly c d : Byte) : timesX poly (c ^^^ d) = crcRound poly c (d.getLsbD 7) ^^^ (d <<< 1) := by
  rw [timesX, crcRound, crcRound, BitVec.getLsbD_xor, Bool.xor_false, BitVec.shiftLeft_xor_distrib]
  split
  · ac_rfl
  · rfl

/-- The low `k` bits of a byte can be fed round by round, or xored into the top of the register at once. -/
theorem crcRounds_byte (poly b : Byte) {k : Nat} (hk : k ≤ 8) (c : Byte) :
    crcRounds poly b k c = (timesX poly)^[k] (c ^^^ b <<< (8 - k)) := by
  induction k generalizing c with
  | zero => simp [crcRounds]
  | succ k ih =>
    have top : (b <<< (8 - (k + 1))).getLsbD 7 = b.getLsbD k := by
      rw [BitVec.getLsbD_shiftLeft, show 7 - (8 - (k + 1)) = k by omega]
      simp
    have shifted : b <<< (8 - (k + 1)) <<< 1 = b <<< (8 - k) := by
      rw [← BitVec.shiftLeft_add, show 8 - (k + 1) + 1 = 8 - k by omega]
    rw [crcRounds, ih (Nat.le_of_succ_le hk), Function.iterate_succ_apply, timesX_xor, top, shifted]

/-- R62: eight rounds of message bits are one look-up in the table. -/
theorem crcRounds_add_eight {n : Nat} (poly : Byte) (msg : BitVec n) (j : Nat) (c : Byte) :
    crcRounds poly msg (j + 8) c = crcRounds poly msg j (crcTable poly (c ^^^ msg.extractLsb' j 8)) := by
  have same_bits : ∀ i < 8, (msg >>> j).getLsbD i = (msg.extractLsb' j 8).getLsbD i := by
    intro i hi
    simp [hi]
  rw [crcRounds_add, crcRounds_congr poly same_bits, crcRounds_byte poly _ (Nat.le_refl 8), crcTable_eq_iterate,
    Nat.sub_self, BitVec.shiftLeft_zero]

theorem crc8_eq_table_steps (cfg : Config) (m : Body) :
    crc8 cfg m =
      crcTable cfg.crcPoly
        (crcTable cfg.crcPoly
          (crcTable cfg.crcPoly (cfg.crcInit ^^^ m.extractLsb' 16 8) ^^^ m.extractLsb' 8 8) ^^^
            m.extractLsb' 0 8) ^^^ cfg.crcXorOut := by
  rw [crc8, crcRounds_add_eight _ _ 16, crcRounds_add_eight _ _ 8, crcRounds_add_eight _ _ 0]
  rfl

/-- Settles O20: three look-ups take the place of the 24 rounds; the listed entries are evaluated. -/
theorem tableDrivenCrcAgrees : Obligations.TableDrivenCrcAgrees := by
  refine ⟨fun poly x => ?_, fun cfg m => ⟨crc8_eq_table_steps cfg m, (crc8_eq_table_steps cfg m).symm⟩, ?_⟩
  · rw [crcTable_eq_iterate, timesX_eq_ite]
  · decide +kernel

end Sys2Proof.Machine
end

section
/-! PROOFS. The CRC is linear but for its parameters, and a frame passes CRCCHK where it carries the CRC of its body
(R63, R65, R66). -/

namespace Sys2Proof.Machine

theorem getLsbD_crcRound (poly c : Byte) (m : Bool) (i : Nat) :
    (crcRound poly c m).getLsbD i = ((c <<< 1).getLsbD i ^^ ((c.getLsbD 7 ^^ m) && poly.getLsbD i)) := by
  unfold crcRound
  split
  next h => rw [BitVec.getLsbD_xor, h, Bool.true_and]
  next h => rw [Bool.eq_false_of_not_eq_true h, Bool.false_and, Bool.xor_false]

/-- A round is linear in the register and the message bit together. -/
theorem crcRound_xor (poly c d : Byte) (m n : Bool) :
    crcRound poly (c ^^^ d) (m ^^ n) = crcRound poly c m ^^^ crcRound poly d n := by
  refine BitVec.eq_of_getLsbD_eq fun i _ => ?_
  simp only [getLsbD_crcRound, BitVec.shiftLeft_xor_distrib, BitVec.getLsbD_xor, Bool.and_xor_distrib_right,
    Bool.xor_assoc, Bool.xor_left_comm]

theorem crcRounds_xor {n : Nat} (poly : Byte) (a b : BitVec n) (k : Nat) (c d : Byte) :
    crcRounds poly (a ^^^ b) k (c ^^^ d) = crcRounds poly a k c ^^^ crcRounds poly b k d := by
  induction k generalizing c d with
  | zero => rfl
  | succ k ih => rw [crcRounds, BitVec.getLsbD_xor, crcRound_xor, ih, crcRounds, crcRounds]

/-- Flipping the bits `d` of a message changes its CRC by the rounds of `d` from register 0, whatever the message. -/
theorem crc8_xor (cfg : Config) (m d : Body) : crc8 cfg (m ^^^ d) = crc8 cfg m ^^^ crcRounds cfg.crcPoly d 24 0#8 := by
  have rounds := crcRounds_xor cfg.crcPoly m d 24 cfg.crcInit 0#8
  rw [BitVec.xor_zero] at rounds
  rw [crc8, crc8, rounds]
  ac_rfl

theorem crc8_affine (cfg : Config) (a b : Body) : crc8 cfg (a ^^^ b) = crc8 cfg a ^^^ crc8 cfg b ^^^ crc8 cfg 0#24 := by
  have hb : crc8 cfg b = crc8 cfg 0#24 ^^^ crcRounds cfg.crcPoly b 24 0#8 := by
    rw [← crc8_xor, BitVec.zero_xor]
  rw [crc8_xor, hb, BitVec.xor_assoc, BitVec.xor_comm (crc8 cfg 0#24), BitVec.xor_assoc, BitVec.xor_self,
    BitVec.xor_zero]

/-- What CRCCHK reports as `ok` is whether the frame carries the CRC of its body. -/
theorem exec_crcchk_reports_iff (s : State) (chk : Bit) (f : Frame) (b : BitVec 16) (ok : Bool) :
    (∃ t rx recomputed, exec (.crcchk chk f b) s = .next t ∧ t.output = some (.crcChk ok rx recomputed)) ↔
      (frameCrc f == crc8 s.cfg (frameBody f)) = ok := by
  rw [exec_crcchk]
  constructor
  · rintro ⟨t, rx, recomputed, hnext, hout⟩
    obtain rfl := Host.Outcome.next.inj hnext
    rw [State.deliver_output] at hout
    injection hout with hout
    injection hout
  · rintro rfl
    exact ⟨_, _, _, rfl, rfl⟩

theorem frameOf_frameCrc_frameBody (f : Frame) : frameOf (frameCrc f) (frameBody f) = f := by
  rw [frameOf, frameCrc, frameBody, BitVec.extractLsb'_append_extractLsb'_eq_extractLsb' (by decide)]
  exact BitVec.extractLsb'_eq_self

theorem frameCrc_eq_iff (f : Frame) (crc : Byte) : frameCrc f = crc ↔ f = frameOf crc (frameBody f) := by
  constructor
  · rintro rfl
    exact (frameOf_frameCrc_frameBody f).symm
  · intro h
    rw [h, frameCrc_frameOf]

/-- Settles O21: the affine law; the default CRC of the zero message, evaluated; and a frame is its CRC field above its
body. -/
theorem crcAlgebraicLaws : Obligations.CrcAlgebraicLaws := by
  refine ⟨crc8_affine, fun cfg hpoly hinit hout => ?_, fun s chk b m f hm => ?_⟩
  · rw [crc8, hpoly, hinit, hout]
    decide +kernel
  · subst hm
    rw [exec_crcchk_reports_iff, beq_iff_eq]
    exact frameCrc_eq_iff f _

/-- Settles O23: the message operand is A[23:0]. -/
theorem crc8AnswersTheCrcOfTheLow24Bits : Obligations.Crc8AnswersTheCrcOfTheLow24Bits :=
  fun s chk a b => ⟨decodeCommand_000 chk a b, exec_crc8 s chk a b⟩

/-- Settles O24: the received CRC is the frame's field, the recomputed one that of its body. -/
theorem crcchkReportsBothCrcs : Obligations.CrcchkReportsBothCrcs := by
  rintro s chk f b _ _ rfl rfl
  exact ⟨decodeCommand_001 chk f b, exec_crcchk s chk f b⟩

end Sys2Proof.Machine
end

section
/-! PROOFS. Why CRCCHK with polynomial 0x1D detects the errors of R64: it is blind to an error exactly where the error's
own syndrome is 0, and the powers of `x` that make up a syndrome do not cancel. -/

namespace Sys2Proof.Machine

/-- How far a frame is from passing CRCCHK, when the initial value and the final XOR are left out: the CRC of its body
by linear rounds alone, xored with its CRC field. -/
def syndrome (poly : Byte) (f : Frame) : Byte := crcRounds poly (frameBody f) 24 0#8 ^^^ frameCrc f

theorem syndrome_xor (poly : Byte) (e e' : Frame) :
    syndrome poly (e ^^^ e') = syndrome poly e ^^^ syndrome poly e' := by
  have rounds := crcRounds_xor poly (frameBody e) (frameBody e') 24 0#8 0#8
  rw [BitVec.xor_zero] at rounds
  simp only [syndrome, frameBody, frameCrc, BitVec.extractLsb'_xor] at rounds ⊢
  rw [rounds]
  ac_rfl

/-- An error on a frame that carries its CRC goes unseen exactly where its own syndrome is 0. -/
theorem frameCrc_xor_eq_crc8_iff (cfg : Config) {f : Frame} (e : Frame) (hf : frameCrc f = crc8 cfg (frameBody f)) :
    frameCrc (f ^^^ e) = crc8 cfg (frameBody (f ^^^ e)) ↔ syndrome cfg.crcPoly e = 0#8 := by
  have crc_xor : frameCrc (f ^^^ e) = frameCrc f ^^^ frameCrc e := BitVec.extractLsb'_xor
  have body_xor : frameBody (f ^^^ e) = frameBody f ^^^ frameBody e := BitVec.extractLsb'_xor
  rw [crc_xor, body_xor, crc8_xor, hf, BitVec.xor_right_inj, syndrome, BitVec.xor_eq_zero_iff, eq_comm]

/-- A polynomial with constant term 1 gives back the bit that a round shifts out. -/
theorem timesX_injective {poly : Byte} (hodd : poly.getLsbD 0 = true) : Function.Injective (timesX poly) := by
  intro c d h
  have bit (i : Nat) : ((c <<< 1).getLsbD i ^^ (c.getLsbD 7 && poly.getLsbD i)) =
      ((d <<< 1).getLsbD i ^^ (d.getLsbD 7 && poly.getLsbD i)) := by
    simpa only [timesX, getLsbD_crcRound, Bool.xor_false] using congrArg (fun r => r.getLsbD i) h
  have top : c.getLsbD 7 = d.getLsbD 7 := by simpa [hodd, -BitVec.getLsbD_eq_getElem] using bit 0
  have shifted : c <<< 1 = d <<< 1 :=
    BitVec.eq_of_getLsbD_eq fun i _ => by simpa only [top, Bool.xor_left_inj] using bit i
  refine BitVec.eq_of_getLsbD_eq fun i hi => ?_
  obtain rfl | hlt : i = 7 ∨ i + 1 < 8 := by omega
  · exact top
  · simpa [hlt, -BitVec.getLsbD_eq_getElem] using congrArg (fun r => r.getLsbD (i + 1)) shifted

theorem iterate_timesX_ne_zero {poly : Byte} (hodd : poly.getLsbD 0 = true) (k : Nat) {c : Byte} (hc : c ≠ 0#8) :
    (timesX poly)^[k] c ≠ 0#8 := by
  intro h
  rw [← Function.iterate_fixed (timesX_zero poly) k] at h
  exact hc ((timesX_injective hodd).iterate k h)

/-- The default polynomial is primitive, so its powers of `x` repeat only after 255. Those below 32 are enough here. -/
theorem iterate_timesX_one_ne_one : ∀ k < 32, k ≠ 0 → (timesX 0x1D#8)^[k] 1#8 ≠ 1#8 := by decide +kernel

theorem iterate_timesX_one_injOn {j k : Nat} (hj : j < 32) (hk : k < 32)
    (h : (timesX 0x1D#8)^[j] 1#8 = (timesX 0x1D#8)^[k] 1#8) : j = k := by
  have no_gap {p q : Nat} (hp : p < 32) (hpq : (timesX 0x1D#8)^[p] 1#8 = (timesX 0x1D#8)^[q] 1#8) : p - q = 0 :=
    by_contra fun hne => iterate_timesX_one_ne_one (p - q) (by omega) hne
      (Function.iterate_cancel (timesX_injective rfl) hpq)
  have := no_gap hj h
  have := no_gap hk h.symm
  omega

/-- The body stands eight powers of `x` above the CRC field, although the field is sent first. -/
theorem syndrome_bit : ∀ i < 32, syndrome 0x1D#8 (1#32 <<< i) = (timesX 0x1D#8)^[(i + 8) % 32] 1#8 := by
  decide +kernel

theorem syndrome_two_bits_ne_zero {i j : Nat} (hi : i < 32) (hj : j < 32) (hij : i ≠ j) :
    syndrome 0x1D#8 ((1#32 <<< i) ^^^ (1#32 <<< j)) ≠ 0#8 := by
  rw [syndrome_xor, syndrome_bit i hi, syndrome_bit j hj, Ne, BitVec.xor_eq_zero_iff]
  intro h
  have := iterate_timesX_one_injOn (Nat.mod_lt _ (by decide)) (Nat.mod_lt _ (by decide)) h
  omega

theorem syndrome_ne_zero_of_frameBody_eq_zero (poly : Byte) {e : Frame} (he : e ≠ 0#32) (hbody : frameBody e = 0#24) :
    syndrome poly e ≠ 0#8 := by
  rw [syndrome, hbody, crcRounds_zero_message, Function.iterate_fixed (timesX_zero poly), BitVec.zero_xor, Ne,
    frameCrc_eq_iff, hbody]
  exact he

/-- The part of a burst that lies in the body; the rest is in the CRC field. -/
theorem frameBody_burst (burst : Byte) (pos : Nat) :
    frameBody (burst.setWidth 32 <<< pos) = burst.setWidth 24 <<< pos := by
  refine BitVec.eq_of_getLsbD_eq fun i hi => ?_
  have in_frame : i < 32 ∧ i - pos < 32 := by omega
  simp [frameBody, hi, in_frame]

theorem frameCrc_burst (burst : Byte) {pos : Nat} (hpos : pos ≤ 24) :
    frameCrc (burst.setWidth 32 <<< pos) = burst >>> (24 - pos) := by
  refine BitVec.eq_of_getLsbD_eq fun i hi => ?_
  have place : 24 + i - pos = 24 - pos + i := by omega
  have in_frame : 24 + i < 32 ∧ 24 - pos + i < 32 := by omega
  have at_or_above : pos ≤ 24 + i := by omega
  simp [frameCrc, hi, place, in_frame, at_or_above]

/-- What the top of the body cuts off a byte that starts at bit `16 + k`, a byte's own shift cuts off too. -/
theorem setWidth_shiftLeft_add (b : Byte) (k : Nat) :
    b.setWidth 24 <<< (16 + k) = (b <<< k).setWidth 24 <<< 16 := by
  refine BitVec.eq_of_getLsbD_eq fun i hi => ?_
  have in_range : i - 16 < 8 ∧ i - 16 < 24 ∧ i - (16 + k) < 24 := by omega
  have place : i - 16 - k = i - (16 + k) := by omega
  have below : decide (i < 16 + k) = (decide (i < 16) || decide (i - 16 < k)) := by
    rw [← Bool.decide_or]
    exact decide_eq_decide.mpr (by omega)
  simp [hi, in_range, place, below, Bool.and_assoc, -BitVec.getLsbD_eq_getElem]

/-- A body that is one byte at bit `lo`: the rounds above it leave register 0, the table takes it in, and the rounds
below it multiply by `x^lo`. -/
theorem crcRounds_byte_at (poly b : Byte) {lo : Nat} (hlo : lo ≤ 16) :
    crcRounds poly (b.setWidth 24 <<< lo) 24 0#8 = (timesX poly)^[lo + 8] b := by
  have above : (b.setWidth 24 <<< lo) >>> (lo + 8) = 0#24 := by
    refine BitVec.eq_of_getLsbD_eq fun i _ => ?_
    have beyond := BitVec.getLsbD_of_ge b (lo + 8 + i - lo) (by omega)
    simp [beyond]
  have byte : (b.setWidth 24 <<< lo).extractLsb' lo 8 = b := by
    refine BitVec.eq_of_getLsbD_eq fun i hi => ?_
    have in_body : lo + i < 24 ∧ i < 24 := by omega
    simp [hi, in_body]
  have below : ∀ i < lo, (b.setWidth 24 <<< lo).getLsbD i = (0#24).getLsbD i := by
    intro i hi
    simp [hi]
  calc crcRounds poly (b.setWidth 24 <<< lo) 24 0#8
      = crcRounds poly (b.setWidth 24 <<< lo) (lo + 8 + (16 - lo)) 0#8 := by
        rw [show lo + 8 + (16 - lo) = 24 by omega]
    _ = crcRounds poly (b.setWidth 24 <<< lo) (lo + 8) 0#8 := by
        rw [crcRounds_add, above, crcRounds_zero_message, Function.iterate_fixed (timesX_zero poly)]
    _ = crcRounds poly (b.setWidth 24 <<< lo) lo (crcTable poly b) := by
        rw [crcRounds_add_eight, byte, BitVec.zero_xor]
    _ = (timesX poly)^[lo + 8] b := by
        rw [crcRounds_congr poly below, crcRounds_zero_message, crcTable_eq_iterate, Function.iterate_add_apply]

/-- A burst across the boundary is the one case that theory does not cover, because the body's top bit and the CRC
field's bottom bit are 31 powers of `x` apart. An error `a` in the body's top byte that starts at bit `k` of it would
have to be matched by an error in the low `k` bits of the CRC field; its CRC is not that small. -/
theorem two_pow_le_iterate_timesX : ∀ k < 8, ∀ a : Byte, a ≠ 0#8 → 2 ^ k ∣ a.toNat →
    2 ^ k ≤ ((timesX 0x1D#8)^[24] a).toNat := by decide +kernel

theorem iterate_timesX_ne_ushiftRight {burst : Byte} {k : Nat} (hk : k < 8) (hbody : burst <<< k ≠ 0#8) :
    (timesX 0x1D#8)^[24] (burst <<< k) ≠ burst >>> (8 - k) := by
  intro h
  have starts_at_k : 2 ^ k ∣ (burst <<< k).toNat := by
    rw [BitVec.toNat_shiftLeft, Nat.shiftLeft_eq, Nat.dvd_mod_iff (Nat.pow_dvd_pow 2 hk.le)]
    exact Nat.dvd_mul_left _ _
  have large := two_pow_le_iterate_timesX k hk _ hbody starts_at_k
  have small : (burst >>> (8 - k)).toNat < 2 ^ k := by
    rw [BitVec.toNat_ushiftRight, Nat.shiftRight_eq_div_pow]
    refine Nat.div_lt_of_lt_mul ?_
    rw [← Nat.pow_add, Nat.sub_add_cancel hk.le]
    exact burst.isLt
  rw [h] at large
  omega

/-- A burst lies in the CRC field alone, in the body alone, or across the boundary between them. -/
theorem syndrome_burst_ne_zero {burst : Byte} {pos : Nat} (he : burst.setWidth 32 <<< pos ≠ 0#32) :
    syndrome 0x1D#8 (burst.setWidth 32 <<< pos) ≠ 0#8 := by
  by_cases hbody : frameBody (burst.setWidth 32 <<< pos) = 0#24
  · exact syndrome_ne_zero_of_frameBody_eq_zero _ he hbody
  rw [frameBody_burst] at hbody
  have hpos : pos < 24 := Nat.lt_of_not_le fun h => hbody (BitVec.shiftLeft_eq_zero h)
  rw [syndrome, frameBody_burst, frameCrc_burst _ hpos.le, Ne, BitVec.xor_eq_zero_iff]
  obtain hlow | ⟨k, rfl⟩ : pos ≤ 16 ∨ ∃ k, pos = 16 + k := by
    rcases Nat.le_total pos 16 with h | h
    · exact .inl h
    · exact .inr (Nat.exists_eq_add_of_le h)
  · have hburst : burst ≠ 0#8 := by
      rintro rfl
      exact hbody (by simp)
    rw [crcRounds_byte_at _ _ hlow, BitVec.ushiftRight_eq_zero (by omega)]
    exact iterate_timesX_ne_zero rfl _ hburst
  · have htop : burst <<< k ≠ 0#8 := by
      intro h
      rw [setWidth_shiftLeft_add, h] at hbody
      exact hbody rfl
    rw [setWidth_shiftLeft_add, crcRounds_byte_at _ _ (Nat.le_refl 16), Nat.sub_add_eq]
    exact iterate_timesX_ne_ushiftRight (by omega) htop

theorem ErrorPattern.syndrome_ne_zero {e : Frame} (he : ErrorPattern e) : syndrome 0x1D#8 e ≠ 0#8 := by
  obtain ⟨i, hi, rfl⟩ | ⟨i, hi, j, hj, hij, rfl⟩ | ⟨pos, -, burst, hne, rfl⟩ := he
  · rw [syndrome_bit i hi]
    exact iterate_timesX_ne_zero rfl _ (by decide)
  · exact syndrome_two_bits_ne_zero hi hj hij
  · exact syndrome_burst_ne_zero hne

/-- Settles O22: an error pattern's syndrome is not 0, so the frame it makes does not carry the CRC of its body. -/
theorem defaultCrcDetectsShortErrors : Obligations.DefaultCrcDetectsShortErrors := by
  intro s chk b f e hpoly he hpass
  rw [exec_crcchk_reports_iff, beq_iff_eq] at hpass
  rw [exec_crcchk_reports_iff, beq_eq_false_iff_ne, Ne, frameCrc_xor_eq_crc8_iff s.cfg e hpass, hpoly]
  exact he.syndrome_ne_zero

end Sys2Proof.Machine
end

section
/-! PROOFS. The request codec: the fields of a read request (R47), what the write policy does with address bits 2:0
(R69), and the decoder where the CRC does not stop it (R70, R71). -/

namespace Sys2Proof.Machine

section
variable (crc : Byte) (addrField : BitVec 7) (dontCare : BitVec 13) (addrLow : BitVec 3)

@[simp] theorem frameAddrField_readBody :
    frameAddrField (frameOf crc (readBody addrField dontCare addrLow)) = addrField := by
  rw [frameAddrField, extractLsb'_frameOf _ _ (by decide), readBody, BitVec.extractLsb'_append_eq_of_le (by decide),
    BitVec.extractLsb'_append_eq_of_le (by decide), BitVec.extractLsb'_append_eq_of_le (by decide)]
  exact BitVec.extractLsb'_eq_self

@[simp] theorem frameRw_readBody : frameRw (frameOf crc (readBody addrField dontCare addrLow)) = 0#1 := by
  rw [frameRw, extractLsb'_frameOf _ _ (by decide), readBody, BitVec.extractLsb'_append_eq_of_le (by decide),
    BitVec.extractLsb'_append_eq_of_le (by decide)]
  exact BitVec.extractLsb'_append_eq_right

@[simp] theorem frameDontCare_readBody :
    frameDontCare (frameOf crc (readBody addrField dontCare addrLow)) = dontCare := by
  rw [frameDontCare, extractLsb'_frameOf _ _ (by decide), readBody, BitVec.extractLsb'_append_eq_of_le (by decide)]
  exact BitVec.extractLsb'_append_eq_right

@[simp] theorem frameAddrLow_readBody : frameAddrLow (frameOf crc (readBody addrField dontCare addrLow)) = addrLow := by
  rw [frameAddrLow, extractLsb'_frameOf _ _ (by decide)]
  exact BitVec.extractLsb'_append_eq_right

end

/-- Settles O25: the frame is the sealed body of a read request, whose fields are the two parts of the address and
zeros. -/
theorem encrSendsTheReadRequest : Obligations.EncrSendsTheReadRequest := fun s chk a b =>
  ⟨_, decodeCommand_010 chk a b, exec_encr s chk a b, frameCrc_sealFrame _ _,
    (frameAddrField_readBody ..).trans (addrUpper_operandAddr a), frameRw_readBody .., frameDontCare_readBody ..,
    (frameAddrLow_readBody ..).trans (addrLower_operandAddr a)⟩

@[simp] theorem operandAddr_setWidth (addr : RegAddr) : operandAddr (addr.setWidth 32) = addr := by
  rw [operandAddr, BitVec.extractLsb'_setWidth_of_le (by decide)]
  exact BitVec.extractLsb'_eq_self

@[simp] theorem addrUpper_append (upper : BitVec 7) (lower : BitVec 3) : addrUpper (upper ++ lower) = upper :=
  BitVec.extractLsb'_append_eq_left

/-- R68: a write request carries `addr[9:3]` alone, so under Drop two addresses that agree there give one frame. -/
theorem exec_encw_congr_of_drop {s : State} (hdrop : s.cfg.writeAddrLowPolicy = .drop) (chk : Bit) {a a' : BitVec 32}
    (b : BitVec 16) (hupper : addrUpper (operandAddr a) = addrUpper (operandAddr a')) :
    exec (.encw chk a b) s = exec (.encw chk a' b) s := by
  have accepted (a : BitVec 32) : ¬(s.cfg.writeAddrLowPolicy = .reject ∧ addrLower (operandAddr a) ≠ 0#3) := by
    simp [hdrop]
  rw [exec_encw_of_accepted s chk a b (accepted a), exec_encw_of_accepted s chk a' b (accepted a'), hupper]

/-- Settles O27: under Drop clearing bits 2:0 keeps `addr[9:3]`; under Reject bits that are not zero meet the policy's
guard. -/
theorem writeAddrLowPolicyDecides : Obligations.WriteAddrLowPolicyDecides := by
  refine ⟨fun s chk addr b hdrop => ?_, fun s chk a b hreject hlow => ?_⟩
  · have hupper : addrUpper (operandAddr (addr.setWidth 32)) =
        addrUpper (operandAddr ((addrUpper addr ++ 0#3 : RegAddr).setWidth 32)) := by
      rw [operandAddr_setWidth, operandAddr_setWidth, addrUpper_append]
    exact exec_encw_congr_of_drop hdrop chk b hupper
  · rw [← addrLower_operandAddr] at hlow
    exact exec_encw_of_rejected s chk a b ⟨hreject, hlow⟩

/-- R70, R75, R84: a decoder goes on where the CRC is not checked, and where it agrees. -/
theorem crcStage_of_passed {cfg : Config} {chk : Bit} {rx : Byte} {body : Body} (decoded : Byte → CodecOutcome)
    (h : chk = 0#1 ∨ rx = crc8 cfg body) : crcStage cfg chk rx body decoded = decoded (crc8 cfg body) := by
  obtain ⟨hchecked, hne, -⟩ | ⟨-, hdecoded⟩ := crcStage_cases cfg chk rx body decoded
  · rcases h with hunchecked | hagrees
    · exact absurd (hchecked.symm.trans hunchecked) (by decide)
    · exact absurd hagrees hne
  · exact hdecoded

theorem exec_decreq_of_passed (s : State) {chk : Bit} {f : Frame} (b : BitVec 16)
    (h : chk = 0#1 ∨ frameCrc f = crc8 s.cfg (frameBody f)) :
    exec (.decreq chk f b) s = .next (s.deliver (.request (frameRw f) (frameAddrField f) (frameData f) (requestAddr f)
      (frameCrc f) (crc8 s.cfg (frameBody f)))) := by
  rw [exec_decreq, requestOutcome, crcStage_of_passed _ h]

/-- Settles O29: the CRC stage lets the frame through, and the outcome is then its fields and its rebuilt address. -/
theorem decreqAnswersTheRequestFields : Obligations.DecreqAnswersTheRequestFields := by
  rintro s chk f b _ _ _ rfl rfl hpassed rfl
  exact ⟨decodeCommand_100 chk f b, exec_decreq_of_passed s b hpassed⟩

end Sys2Proof.Machine
end

section
/-! PROOFS. The reply decoder: its CRC stage (R70, R75), the four reply modes (R76 to R82), and the parameters it
reads (R86). -/

namespace Sys2Proof.Machine

/-- R70, R75: a checked decode of a frame whose CRC is wrong ends there. -/
theorem crcStage_of_mismatch {cfg : Config} {rx : Byte} {body : Body} (decoded : Byte → CodecOutcome)
    (h : rx ≠ crc8 cfg body) : crcStage cfg 1#1 rx body decoded = .err (.crcMismatch rx (crc8 cfg body)) :=
  if_pos ⟨rfl, h⟩

/-- Settles O35: both decoders meet their CRC stage before they read another field. -/
theorem checkedDecodersReportACrcMismatch : Obligations.CheckedDecodersReportACrcMismatch := by
  rintro s f b _ _ _ rfl rfl hmismatch rfl
  have hne : frameCrc f ≠ crc8 s.cfg (frameBody f) := hmismatch
  constructor
  · rw [exec_decreq, requestOutcome, crcStage_of_mismatch _ hne]
    rfl
  · rw [exec_decrep, replyOutcome, crcStage_of_mismatch _ hne]
    rfl

section
variable (cfg : Config) {f : Frame} (crc : Byte)

theorem replyOfMode_00 (h : frameMode f = 0b00#2) : replyOfMode cfg f crc =
    status16Outcome cfg (frameStatus f) (frameRw f) (frameData f) (frameCrc f) crc := by
  simp [replyOfMode, h]

theorem replyOfMode_01 (h : frameMode f = 0b01#2) :
    replyOfMode cfg f crc = .reply22 (frameData22 f) (frameCrc f) crc := by
  simp [replyOfMode, h]

theorem replyOfMode_10 (h : frameMode f = 0b10#2) :
    replyOfMode cfg f crc = .critical (frameBitmap f) (frameCrc f) crc := by
  simp [replyOfMode, h]

theorem replyOfMode_11 (h : frameMode f = 0b11#2) :
    replyOfMode cfg f crc = .err (.reservedMode (frameData22 f) (frameCrc f) crc) := by
  simp [replyOfMode, h]

end

theorem replyOutcome_of_passed {cfg : Config} {chk : Bit} {f : Frame}
    (h : chk = 0#1 ∨ frameCrc f = crc8 cfg (frameBody f)) :
    replyOutcome cfg chk f = replyOfMode cfg f (crc8 cfg (frameBody f)) :=
  crcStage_of_passed _ h

theorem exec_decrep_of_passed (s : State) {chk : Bit} {f : Frame} (b : BitVec 16)
    (h : chk = 0#1 ∨ frameCrc f = crc8 s.cfg (frameBody f)) :
    exec (.decrep chk f b) s = .next (s.deliver (replyOfMode s.cfg f (crc8 s.cfg (frameBody f)))) := by
  rw [exec_decrep, replyOutcome_of_passed h]

/-- R80: the data of a 22-bit reply stands in two fields of the frame that meet. -/
theorem frameData22_eq_append (f : Frame) : frameData22 f = f.extractLsb' 16 6 ++ f.extractLsb' 0 16 :=
  (BitVec.extractLsb'_append_extractLsb'_eq_extractLsb' (start₁ := 0) (len₁ := 16) (len₂ := 6) rfl).symm

/-- Settles O32: the mode stage reads no status, and the 22 bits are the two fields R80 names. -/
theorem decrepAnswersReply22 : Obligations.DecrepAnswersReply22 := by
  rintro s chk f b _ _ _ rfl rfl hpassed hmode rfl
  rw [exec_decrep_of_passed s b hpassed, replyOfMode_01 _ _ hmode, frameData22_eq_append]
  rfl

/-- Settles O33: the mode stage reads the bitmap alone, and answers no error. -/
theorem decrepAnswersCritical : Obligations.DecrepAnswersCritical := by
  rintro s chk f b _ _ _ rfl rfl hpassed hmode rfl
  rw [exec_decrep_of_passed s b hpassed, replyOfMode_10 _ _ hmode]
  rfl

/-- Settles O34: the mode stage keeps all the bits below the mode. -/
theorem decrepReportsTheReservedMode : Obligations.DecrepReportsTheReservedMode := by
  rintro s chk f b _ _ _ rfl rfl hpassed hmode rfl
  rw [exec_decrep_of_passed s b hpassed, replyOfMode_11 _ _ hmode]
  rfl

section
variable {cfg cfg' : Config}

/-- R61: the CRC reads its three parameters. -/
theorem crc8_congr (hpoly : cfg.crcPoly = cfg'.crcPoly) (hinit : cfg.crcInit = cfg'.crcInit)
    (hxorOut : cfg.crcXorOut = cfg'.crcXorOut) (m : Body) : crc8 cfg m = crc8 cfg' m := by
  simp only [crc8, hpoly, hinit, hxorOut]

/-- R79: a class is looked up only where the status is a device error. -/
theorem status16Outcome_congr {status : BitVec 5} {rwEcho : Bit} {data : BitVec 16} {rx crc : Byte}
    (h : cfg.statusClass = cfg'.statusClass ∨ (status16Outcome cfg status rwEcho data rx crc).res ≠ 5) :
    status16Outcome cfg status rwEcho data rx crc = status16Outcome cfg' status rwEcho data rx crc := by
  rcases h with hclass | hres
  · simp only [status16Outcome, classOf, hclass]
  · obtain ⟨rfl, -⟩ | ⟨-, hdevice⟩ := status16Outcome_cases cfg status rwEcho data rx crc
    · rfl
    · rw [hdevice] at hres
      exact absurd rfl hres

/-- R76: only mode 00 reads the configuration. -/
theorem replyOfMode_congr {f : Frame} {crc : Byte}
    (h : cfg.statusClass = cfg'.statusClass ∨ (replyOfMode cfg f crc).res ≠ 5) :
    replyOfMode cfg f crc = replyOfMode cfg' f crc := by
  obtain ⟨hmode, -⟩ | ⟨hmode, -⟩ | ⟨hmode, -⟩ | ⟨hmode, -⟩ := replyOfMode_cases cfg f crc
  · rw [replyOfMode_00 _ _ hmode] at h ⊢
    rw [replyOfMode_00 _ _ hmode, status16Outcome_congr h]
  · rw [replyOfMode_01 _ _ hmode, replyOfMode_01 _ _ hmode]
  · rw [replyOfMode_10 _ _ hmode, replyOfMode_10 _ _ hmode]
  · rw [replyOfMode_11 _ _ hmode, replyOfMode_11 _ _ hmode]

/-- Two configurations with one CRC take one branch of the CRC stage. -/
theorem replyOutcome_congr {chk : Bit} {f : Frame} (hcrc : crc8 cfg (frameBody f) = crc8 cfg' (frameBody f))
    (h : cfg.statusClass = cfg'.statusClass ∨ (replyOutcome cfg chk f).res ≠ 5) :
    replyOutcome cfg chk f = replyOutcome cfg' chk f := by
  by_cases hpassed : chk = 0#1 ∨ frameCrc f = crc8 cfg (frameBody f)
  · have hpassed' : chk = 0#1 ∨ frameCrc f = crc8 cfg' (frameBody f) := hcrc ▸ hpassed
    rw [replyOutcome_of_passed hpassed] at h ⊢
    rw [replyOutcome_of_passed hpassed', ← hcrc, replyOfMode_congr h]
  · obtain ⟨hchecked, hne⟩ := not_or.mp hpassed
    obtain rfl : chk = 1#1 := (BitVec.eq_zero_or_eq_one chk).resolve_left hchecked
    rw [replyOutcome, replyOutcome, crcStage_of_mismatch _ hne, crcStage_of_mismatch _ (hcrc ▸ hne), hcrc]

end

/-- Settles O50: the outcomes are those of the reply decoder, which reads the CRC in its first stage and STATUS_CLASS
for a device error alone. -/
theorem decrepDependsOnCrcAndStatusClassOnly : Obligations.DecrepDependsOnCrcAndStatusClassOnly := by
  intro chk f b cfg cfg' hpoly hinit hxorOut
  have hcrc := crc8_congr hpoly hinit hxorOut (frameBody f)
  refine ⟨replyOutcome cfg chk f, replyOutcome cfg' chk f, ?_, ?_,
    fun hclass => replyOutcome_congr hcrc (.inl hclass), fun hres => replyOutcome_congr hcrc (.inr hres)⟩
  · rintro s rfl
    exact exec_decrep s chk f b
  · rintro s rfl
    exact exec_decrep s chk f b

end Sys2Proof.Machine
end

section
/-! PROOFS. The causes of the error outcomes (R89) and their order (R90). -/

namespace Sys2Proof.Machine

/-- R89: what makes a command answer an error, row by row, with the values the row records. The two rows below the CRC
check are reached where it does not stop the decode (R90). -/
inductive ErrorCause (cfg : Config) (c : Command) : CodecError → Prop
  | illegalOp (hop : c.op = 0b110#3 ∨ c.op = 0b111#3) : ErrorCause cfg c (.illegalOp c.op)
  | writeAddrLow (hop : c.op = 0b011#3)
      (hrejected : cfg.writeAddrLowPolicy = .reject ∧ addrLower (operandAddr c.a) ≠ 0#3) :
      ErrorCause cfg c (.writeAddrLow (operandAddr c.a))
  | crcMismatch (hop : c.op = 0b100#3 ∨ c.op = 0b101#3) (hchk : c.chk = 1#1)
      (hne : frameCrc c.a ≠ crc8 cfg (frameBody c.a)) :
      ErrorCause cfg c (.crcMismatch (frameCrc c.a) (crc8 cfg (frameBody c.a)))
  | reservedMode (hop : c.op = 0b101#3) (hpassed : c.chk = 0#1 ∨ frameCrc c.a = crc8 cfg (frameBody c.a))
      (hmode : frameMode c.a = 0b11#2) :
      ErrorCause cfg c (.reservedMode (frameData22 c.a) (frameCrc c.a) (crc8 cfg (frameBody c.a)))
  | deviceStatus (hop : c.op = 0b101#3) (hpassed : c.chk = 0#1 ∨ frameCrc c.a = crc8 cfg (frameBody c.a))
      (hmode : frameMode c.a = 0b00#2) (hstatus : frameStatus c.a ≠ 0#5) :
      ErrorCause cfg c (.deviceStatus (frameStatus c.a) (classOf cfg (frameStatus c.a)) (frameRw c.a) (frameData c.a)
        (frameCrc c.a) (crc8 cfg (frameBody c.a)))

/-- R70, R75: a decode that reports no mismatch is unchecked, or its CRC agrees. -/
theorem crc_passed_of_no_mismatch {cfg : Config} {c : Command} (hop : c.op = 0b100#3 ∨ c.op = 0b101#3)
    (h : ¬((c.op = 0b100#3 ∨ c.op = 0b101#3) ∧ c.chk = 1#1 ∧ frameCrc c.a ≠ crc8 cfg (frameBody c.a))) :
    c.chk = 0#1 ∨ frameCrc c.a = crc8 cfg (frameBody c.a) :=
  (BitVec.eq_zero_or_eq_one c.chk).imp_right fun hchk => by_contra fun hne => h ⟨hop, hchk, hne⟩

/-! ## A cause is answered by its error -/

theorem status16Outcome_of_ne_zero (cfg : Config) {status : BitVec 5} (rwEcho : Bit) (data : BitVec 16) (rx crc : Byte)
    (h : status ≠ 0#5) : status16Outcome cfg status rwEcho data rx crc =
      .err (.deviceStatus status (classOf cfg status) rwEcho data rx crc) :=
  if_pos h

/-- The cause fixes the selector, and that command's branch to the error. -/
theorem exec_of_errorCause {s : State} {c : Command} {e : CodecError} (h : ErrorCause s.cfg c e) :
    exec (decodeCommand c) s = .next (s.deliver (.err e)) := by
  obtain ⟨op, chk, a, b⟩ := c
  cases h with
  | illegalOp hop =>
    obtain (rfl : op = _) | (rfl : op = _) := hop
    · exact exec_reservedOp110 s chk a b
    · exact exec_reservedOp111 s chk a b
  | writeAddrLow hop hrejected =>
    obtain rfl : op = _ := hop
    exact exec_encw_of_rejected s chk a b hrejected
  | crcMismatch hop hchk hne =>
    obtain rfl : chk = _ := hchk
    obtain (rfl : op = _) | (rfl : op = _) := hop
    · rw [decodeCommand_100, exec_decreq, requestOutcome, crcStage_of_mismatch _ hne]
    · rw [decodeCommand_101, exec_decrep, replyOutcome, crcStage_of_mismatch _ hne]
  | reservedMode hop hpassed hmode =>
    obtain rfl : op = _ := hop
    rw [decodeCommand_101, exec_decrep_of_passed s b hpassed, replyOfMode_11 _ _ hmode]
  | deviceStatus hop hpassed hmode hstatus =>
    obtain rfl : op = _ := hop
    rw [decodeCommand_101, exec_decrep_of_passed s b hpassed, replyOfMode_00 _ _ hmode,
      status16Outcome_of_ne_zero _ _ _ _ _ hstatus]

/-! ## With no cause there is no error -/

/-- R76: of the mode stage's branches, mode 11 and a non-zero status of mode 00 hold an error. -/
theorem errorCause_of_replyOfMode {cfg : Config} {c : Command} {e : CodecError} (hop : c.op = 0b101#3)
    (hpassed : c.chk = 0#1 ∨ frameCrc c.a = crc8 cfg (frameBody c.a))
    (h : replyOfMode cfg c.a (crc8 cfg (frameBody c.a)) = .err e) : ErrorCause cfg c e := by
  obtain ⟨hmode, hreply⟩ | ⟨-, hreply⟩ | ⟨-, hreply⟩ | ⟨hmode, hreply⟩ :=
    replyOfMode_cases cfg c.a (crc8 cfg (frameBody c.a)) <;> rw [hreply] at h
  · obtain ⟨-, hanswer⟩ | ⟨hstatus, hanswer⟩ := status16Outcome_cases cfg (frameStatus c.a) (frameRw c.a)
      (frameData c.a) (frameCrc c.a) (crc8 cfg (frameBody c.a)) <;> rw [hanswer] at h
    · cases h
    · cases h
      exact .deviceStatus hop hpassed hmode hstatus
  · cases h
  · cases h
  · cases h
    exact .reservedMode hop hpassed hmode

/-- A command with no cause to err answers a success: one case for each selector. -/
theorem exec_of_no_errorCause {s : State} {c : Command} (h : ∀ e, ¬ErrorCause s.cfg c e) :
    ∃ o, exec (decodeCommand c) s = .next (s.deliver o) ∧ ∀ e, o ≠ .err e := by
  have hpassed (hop : c.op = 0b100#3 ∨ c.op = 0b101#3) : c.chk = 0#1 ∨ frameCrc c.a = crc8 s.cfg (frameBody c.a) :=
    crc_passed_of_no_mismatch hop fun ⟨hop, hchk, hne⟩ => h _ (.crcMismatch hop hchk hne)
  obtain ⟨op, chk, a, b⟩ := c
  rcases selector_cases op with rfl | rfl | rfl | rfl | rfl | rfl | rfl | rfl
  · exact ⟨_, exec_crc8 s chk a b, nofun⟩
  · exact ⟨_, exec_crcchk s chk a b, nofun⟩
  · exact ⟨_, exec_encr s chk a b, nofun⟩
  · exact ⟨_, exec_encw_of_accepted s chk a b fun hrejected => h _ (.writeAddrLow rfl hrejected), nofun⟩
  · exact ⟨_, exec_decreq_of_passed s b (hpassed (.inl rfl)), nofun⟩
  · exact ⟨_, exec_decrep_of_passed s b (hpassed (.inr rfl)),
      fun e herr => h e (errorCause_of_replyOfMode rfl (hpassed (.inr rfl)) herr)⟩
  · exact absurd (.illegalOp (.inl rfl)) (h _)
  · exact absurd (.illegalOp (.inr rfl)) (h _)

/-- R89: a command is answered, and with an error exactly where that error's cause holds. -/
theorem exec_err_iff_cause (s : State) (c : Command) : ∃ o, exec (decodeCommand c) s = .next (s.deliver o) ∧
    ∀ e, o = .err e ↔ ErrorCause s.cfg c e := by
  by_cases hcause : ∃ e, ErrorCause s.cfg c e
  · obtain ⟨e, hcause⟩ := hcause
    have hexec := exec_of_errorCause hcause
    refine ⟨.err e, hexec, fun e' => ⟨?_, fun hcause' => ?_⟩⟩
    · rintro ⟨⟩
      exact hcause
    · have hsame : s.deliver (.err e) = s.deliver (.err e') :=
        Host.Outcome.next.inj (hexec.symm.trans (exec_of_errorCause hcause'))
      exact Option.some.inj (congrArg State.output hsame)
  · have hnone := not_exists.mp hcause
    obtain ⟨o, hexec, hsuccess⟩ := exec_of_no_errorCause hnone
    exact ⟨o, hexec, fun e => iff_of_false (hsuccess e) (hnone e)⟩

/-! ## The rows of the table -/

/-- R8, R79: the table of classes has an entry for every non-zero status. -/
theorem getElem?_statusClass_eq_some_iff {cfg : Config} {status : BitVec 5} {cls : StatusClass} :
    cfg.statusClass[status.toNat - 1]? = some cls ↔ classOf cfg status = cls := by
  have hindex : status.toNat - 1 < 31 := by have := status.isLt; omega
  simp [classOf, hindex]

section
variable {cfg : Config} {c : Command}

theorem errorCause_illegalOp_iff {op : BitVec 3} :
    ErrorCause cfg c (.illegalOp op) ↔ (c.op = 0b110#3 ∨ c.op = 0b111#3) ∧ op = c.op := by
  constructor
  · intro h
    cases h with
    | illegalOp hop => exact ⟨hop, rfl⟩
  · rintro ⟨hop, rfl⟩
    exact .illegalOp hop

theorem errorCause_writeAddrLow_iff {addr : RegAddr} : ErrorCause cfg c (.writeAddrLow addr) ↔
    c.op = 0b011#3 ∧ cfg.writeAddrLowPolicy = .reject ∧ c.a.extractLsb' 0 3 ≠ 0#3 ∧ addr = operandAddr c.a := by
  rw [← addrLower_operandAddr]
  constructor
  · intro h
    cases h with
    | writeAddrLow hop hrejected =>
      obtain ⟨hreject, hlow⟩ := hrejected
      exact ⟨hop, hreject, hlow, rfl⟩
  · rintro ⟨hop, hreject, hlow, rfl⟩
    exact .writeAddrLow hop ⟨hreject, hlow⟩

theorem errorCause_crcMismatch_iff {rx recomputed : Byte} : ErrorCause cfg c (.crcMismatch rx recomputed) ↔
    (c.op = 0b100#3 ∨ c.op = 0b101#3) ∧ c.chk = 1#1 ∧ rx = frameCrc c.a ∧
      recomputed = crc8 cfg (frameBody c.a) ∧ rx ≠ recomputed := by
  constructor
  · intro h
    cases h with
    | crcMismatch hop hchk hne => exact ⟨hop, hchk, rfl, rfl, hne⟩
  · rintro ⟨hop, hchk, rfl, rfl, hne⟩
    exact .crcMismatch hop hchk hne

theorem errorCause_reservedMode_iff {raw : BitVec 22} {rx recomputed : Byte} :
    ErrorCause cfg c (.reservedMode raw rx recomputed) ↔
      c.op = 0b101#3 ∧ (c.chk = 0#1 ∨ rx = recomputed) ∧ frameMode c.a = 0b11#2 ∧ raw = frameData22 c.a ∧
        rx = frameCrc c.a ∧ recomputed = crc8 cfg (frameBody c.a) := by
  constructor
  · intro h
    cases h with
    | reservedMode hop hpassed hmode => exact ⟨hop, hpassed, hmode, rfl, rfl, rfl⟩
  · rintro ⟨hop, hpassed, hmode, rfl, rfl, rfl⟩
    exact .reservedMode hop hpassed hmode

theorem errorCause_deviceStatus_iff {status : BitVec 5} {cls : StatusClass} {rwEcho : Bit} {data : BitVec 16}
    {rx recomputed : Byte} : ErrorCause cfg c (.deviceStatus status cls rwEcho data rx recomputed) ↔
      c.op = 0b101#3 ∧ (c.chk = 0#1 ∨ rx = recomputed) ∧ frameMode c.a = 0b00#2 ∧ frameStatus c.a ≠ 0#5 ∧
        status = frameStatus c.a ∧ cfg.statusClass[status.toNat - 1]? = some cls ∧ rwEcho = frameRw c.a ∧
        data = frameData c.a ∧ rx = frameCrc c.a ∧ recomputed = crc8 cfg (frameBody c.a) := by
  rw [getElem?_statusClass_eq_some_iff]
  constructor
  · intro h
    cases h with
    | deviceStatus hop hpassed hmode hstatus =>
      exact ⟨hop, hpassed, hmode, hstatus, rfl, rfl, rfl, rfl, rfl, rfl⟩
  · rintro ⟨hop, hpassed, hmode, hstatus, rfl, rfl, rfl, rfl, rfl, rfl⟩
    exact .deviceStatus hop hpassed hmode hstatus

end

/-- Settles O45: the answer is an error exactly for its cause, and each kind of cause is a row of the table. -/
theorem eachErrorHasExactlyItsCause : Obligations.EachErrorHasExactlyItsCause := by
  intro s c
  obtain ⟨o, hexec, hcause⟩ := exec_err_iff_cause s c
  exact ⟨o, _, hexec, State.deliver_output s o,
    fun _ => (hcause _).trans errorCause_illegalOp_iff,
    fun _ => (hcause _).trans errorCause_writeAddrLow_iff,
    fun _ _ => (hcause _).trans errorCause_crcMismatch_iff,
    fun _ _ _ => (hcause _).trans errorCause_reservedMode_iff,
    fun _ _ _ _ _ _ => (hcause _).trans errorCause_deviceStatus_iff⟩

/-! ## The order of the causes -/

theorem exec_res_of_errorCause {s : State} {c : Command} {e : CodecError} (h : ErrorCause s.cfg c e) :
    ∃ o t, exec (decodeCommand c) s = .next t ∧ t.output = some o ∧ o.res = e.code :=
  ⟨.err e, _, exec_of_errorCause h, rfl, rfl⟩

/-- R88: an outcome that is no error reports success. -/
theorem CodecOutcome.res_eq_zero_of_ne_err {o : CodecOutcome} (h : ∀ e, o ≠ .err e) : o.res = 0 := by
  cases o with
  | err e => exact absurd rfl (h e)
  | _ => rfl

theorem exec_res_of_no_errorCause {s : State} {c : Command} (h : ∀ e, ¬ErrorCause s.cfg c e) :
    ∃ o t, exec (decodeCommand c) s = .next t ∧ t.output = some o ∧ o.res = 0 := by
  obtain ⟨o, hexec, hsuccess⟩ := exec_of_no_errorCause h
  exact ⟨o, _, hexec, rfl, CodecOutcome.res_eq_zero_of_ne_err hsuccess⟩

/-- Settles O46: each branch of the chain is a cause of its error, because the branches before it failed; past the last
there is no cause left. -/
theorem firstErrorCauseWins : Obligations.FirstErrorCauseWins := by
  intro s c
  rw [← addrLower_operandAddr]
  split_ifs with hillegal hlow hmismatch hreserved hdevice
  · exact exec_res_of_errorCause (.illegalOp hillegal)
  · obtain ⟨hop, hrejected⟩ := hlow
    exact exec_res_of_errorCause (.writeAddrLow hop hrejected)
  · obtain ⟨hop, hchk, hne⟩ := hmismatch
    exact exec_res_of_errorCause (.crcMismatch hop hchk hne)
  · obtain ⟨hop, hmode⟩ := hreserved
    exact exec_res_of_errorCause (.reservedMode hop (crc_passed_of_no_mismatch (.inr hop) hmismatch) hmode)
  · obtain ⟨hop, hmode, hstatus⟩ := hdevice
    exact exec_res_of_errorCause (.deviceStatus hop (crc_passed_of_no_mismatch (.inr hop) hmismatch) hmode hstatus)
  · refine exec_res_of_no_errorCause fun e hcause => ?_
    cases hcause with
    | illegalOp hop => exact hillegal hop
    | writeAddrLow hop hrejected => exact hlow ⟨hop, hrejected⟩
    | crcMismatch hop hchk hne => exact hmismatch ⟨hop, hchk, hne⟩
    | reservedMode hop _ hmode => exact hreserved ⟨hop, hmode⟩
    | deviceStatus hop _ hmode hstatus => exact hdevice ⟨hop, hmode, hstatus⟩

end Sys2Proof.Machine
end

section
/-! PROOFS. The fields of a reply frame (R50 to R55), and every frame as the body its fields build. -/

namespace Sys2Proof.Machine

section
variable (crc : Byte) (status : BitVec 5) (rwEcho : Bit) (data : BitVec 16)

@[simp] theorem frameMode_reply16Body : frameMode (frameOf crc (reply16Body status rwEcho data)) = 0b00#2 := by
  rw [frameMode, extractLsb'_frameOf _ _ (by decide), reply16Body, BitVec.extractLsb'_append_eq_of_le (by decide),
    BitVec.extractLsb'_append_eq_of_le (by decide)]
  exact BitVec.extractLsb'_append_eq_left

@[simp] theorem frameStatus_reply16Body : frameStatus (frameOf crc (reply16Body status rwEcho data)) = status := by
  rw [frameStatus, extractLsb'_frameOf _ _ (by decide), reply16Body, BitVec.extractLsb'_append_eq_of_le (by decide),
    BitVec.extractLsb'_append_eq_of_le (by decide)]
  exact BitVec.extractLsb'_append_eq_right

@[simp] theorem frameRw_reply16Body : frameRw (frameOf crc (reply16Body status rwEcho data)) = rwEcho := by
  rw [frameRw, extractLsb'_frameOf _ _ (by decide), reply16Body, BitVec.extractLsb'_append_eq_of_le (by decide)]
  exact BitVec.extractLsb'_append_eq_right

@[simp] theorem frameData_reply16Body : frameData (frameOf crc (reply16Body status rwEcho data)) = data := by
  rw [frameData, extractLsb'_frameOf _ _ (by decide)]
  exact BitVec.extractLsb'_append_eq_right

end

section
variable (crc : Byte) (data22 : BitVec 22) (ignored : BitVec 14) (bitmap : Byte)

@[simp] theorem frameMode_reply22Body : frameMode (frameOf crc (reply22Body data22)) = 0b01#2 := by
  rw [frameMode, extractLsb'_frameOf _ _ (by decide)]
  exact BitVec.extractLsb'_append_eq_left

@[simp] theorem frameData22_reply22Body : frameData22 (frameOf crc (reply22Body data22)) = data22 := by
  rw [frameData22, extractLsb'_frameOf _ _ (by decide)]
  exact BitVec.extractLsb'_append_eq_right

@[simp] theorem frameMode_reservedModeBody : frameMode (frameOf crc (reservedModeBody data22)) = 0b11#2 := by
  rw [frameMode, extractLsb'_frameOf _ _ (by decide)]
  exact BitVec.extractLsb'_append_eq_left

@[simp] theorem frameData22_reservedModeBody : frameData22 (frameOf crc (reservedModeBody data22)) = data22 := by
  rw [frameData22, extractLsb'_frameOf _ _ (by decide)]
  exact BitVec.extractLsb'_append_eq_right

@[simp] theorem frameMode_criticalBody : frameMode (frameOf crc (criticalBody ignored bitmap)) = 0b10#2 := by
  rw [frameMode, extractLsb'_frameOf _ _ (by decide), criticalBody, BitVec.extractLsb'_append_eq_of_le (by decide)]
  exact BitVec.extractLsb'_append_eq_left

@[simp] theorem frameIgnored_criticalBody : frameIgnored (frameOf crc (criticalBody ignored bitmap)) = ignored := by
  rw [frameIgnored, extractLsb'_frameOf _ _ (by decide), criticalBody,
    BitVec.extractLsb'_append_eq_of_le (by decide)]
  exact BitVec.extractLsb'_append_eq_right

@[simp] theorem frameBitmap_criticalBody : frameBitmap (frameOf crc (criticalBody ignored bitmap)) = bitmap := by
  rw [frameBitmap, extractLsb'_frameOf _ _ (by decide)]
  exact BitVec.extractLsb'_append_eq_right

end

/-! ## A frame's fields build its body -/

section
variable (f : Frame)

/-- R46: the body of a request, of either kind. -/
theorem requestFields_append : frameAddrField f ++ frameRw f ++ frameData f = frameBody f := by
  rw [frameAddrField, frameRw, frameData, BitVec.extractLsb'_append_extractLsb'_eq_extractLsb' (by decide),
    BitVec.extractLsb'_append_extractLsb'_eq_extractLsb' (by decide)]
  rfl

/-- R47: the data field of a read request. -/
theorem frameDontCare_append_frameAddrLow : frameDontCare f ++ frameAddrLow f = frameData f :=
  BitVec.extractLsb'_append_extractLsb'_eq_extractLsb' (by decide)

theorem frameMode_append_frameData22 : frameMode f ++ frameData22 f = frameBody f :=
  BitVec.extractLsb'_append_extractLsb'_eq_extractLsb' (by decide)

end

section
variable {f : Frame}

theorem readBody_eq_frameBody (h : frameRw f = 0#1) :
    readBody (frameAddrField f) (frameDontCare f) (frameAddrLow f) = frameBody f := by
  rw [readBody, ← h, frameAddrField, frameRw, frameDontCare, frameAddrLow,
    BitVec.extractLsb'_append_extractLsb'_eq_extractLsb' (by decide),
    BitVec.extractLsb'_append_extractLsb'_eq_extractLsb' (by decide),
    BitVec.extractLsb'_append_extractLsb'_eq_extractLsb' (by decide)]
  rfl

theorem writeBody_eq_frameBody (h : frameRw f = 1#1) : writeBody (frameAddrField f) (frameData f) = frameBody f := by
  rw [writeBody, ← h, requestFields_append]

theorem reply16Body_eq_frameBody (h : frameMode f = 0b00#2) :
    reply16Body (frameStatus f) (frameRw f) (frameData f) = frameBody f := by
  rw [reply16Body, ← h, frameMode, frameStatus, frameRw, frameData,
    BitVec.extractLsb'_append_extractLsb'_eq_extractLsb' (by decide),
    BitVec.extractLsb'_append_extractLsb'_eq_extractLsb' (by decide),
    BitVec.extractLsb'_append_extractLsb'_eq_extractLsb' (by decide)]
  rfl

theorem reply22Body_eq_frameBody (h : frameMode f = 0b01#2) : reply22Body (frameData22 f) = frameBody f := by
  rw [reply22Body, ← h, frameMode_append_frameData22]

theorem criticalBody_eq_frameBody (h : frameMode f = 0b10#2) :
    criticalBody (frameIgnored f) (frameBitmap f) = frameBody f := by
  rw [criticalBody, ← h, frameMode, frameIgnored, frameBitmap,
    BitVec.extractLsb'_append_extractLsb'_eq_extractLsb' (by decide),
    BitVec.extractLsb'_append_extractLsb'_eq_extractLsb' (by decide)]
  rfl

theorem reservedModeBody_eq_frameBody (h : frameMode f = 0b11#2) :
    reservedModeBody (frameData22 f) = frameBody f := by
  rw [reservedModeBody, ← h, frameMode_append_frameData22]

end

end Sys2Proof.Machine
end

section
/-! PROOFS. The decoder and the encoder undo each other (R33, R44 to R58). -/

namespace Sys2Proof

open Machine

/-- The layouts of a request frame, and the row that each is decoded as. -/
theorem decodeRequestFrame_cases (chk : Bit) (f : Frame) :
    (frameRw f = 0#1 ∧ decodeRequestFrame chk f =
        .frameReadRequest chk (frameCrc f) (frameAddrField f) (frameDontCare f) (frameAddrLow f)) ∨
      (frameRw f = 1#1 ∧ decodeRequestFrame chk f =
        .frameWriteRequest chk (frameCrc f) (frameAddrField f) (frameData f)) := by
  rcases BitVec.eq_zero_or_eq_one (frameRw f) with h | h <;> simp [decodeRequestFrame, h]

/-- The layouts of a reply frame, and the row that each is decoded as. -/
theorem decodeReplyFrame_cases (chk : Bit) (f : Frame) :
    (frameMode f = 0b00#2 ∧ decodeReplyFrame chk f =
        .frameStatusReply16 chk (frameCrc f) (frameStatus f) (frameRw f) (frameData f)) ∨
      (frameMode f = 0b01#2 ∧ decodeReplyFrame chk f = .frameStatusReply22 chk (frameCrc f) (frameData22 f)) ∨
      (frameMode f = 0b10#2 ∧ decodeReplyFrame chk f =
        .frameCriticalFault chk (frameCrc f) (frameIgnored f) (frameBitmap f)) ∨
      (frameMode f = 0b11#2 ∧ decodeReplyFrame chk f =
        .frameReservedReplyMode11 chk (frameCrc f) (frameData22 f)) := by
  have modes : ∀ m : BitVec 2, m = 0b00#2 ∨ m = 0b01#2 ∨ m = 0b10#2 ∨ m = 0b11#2 := by decide
  rcases modes (frameMode f) with h | h | h | h <;> simp [decodeReplyFrame, h]

@[simp] theorem decode_transfer_bytesOfFrame (dir : Direction) (chk : Bit) (f : Frame) :
    decode (.transfer dir chk (bytesOfFrame f)) = .ok (decodeFrame dir chk f) := by
  simp [decode]

theorem decode_transferOf (dir : Direction) (chk : Bit) (crc : Byte) (body : Body) :
    decode (transferOf dir chk crc body) = .ok (decodeFrame dir chk (frameOf crc body)) :=
  decode_transfer_bytesOfFrame dir chk _

/-- Settles O13: a command word selects its own row; a frame's layout is chosen by the bits its body fixes, and each
field is read where the layout puts it. -/
theorem decodeOfEncodeIsTheInstruction : Obligations.DecodeOfEncodeIsTheInstruction := by
  intro i
  cases i with
  | frameReadRequest | frameWriteRequest => simp [encode, decode_transferOf, decodeFrame, decodeRequestFrame]
  | frameStatusReply16 | frameStatusReply22 | frameCriticalFault | frameReservedReplyMode11 =>
    simp [encode, decode_transferOf, decodeFrame, decodeReplyFrame]
  | _ => rfl

theorem encode_decodeCommand (c : Command) : encode (decodeCommand c) = .command c := by
  obtain ⟨op, chk, a, b⟩ := c
  rcases selector_cases op with rfl | rfl | rfl | rfl | rfl | rfl | rfl | rfl <;> rfl

theorem encode_decodeFrame (dir : Direction) (chk : Bit) (f : Frame) :
    encode (decodeFrame dir chk f) = .transfer dir chk (bytesOfFrame f) := by
  have frame_of_body {body : Body} (h : body = frameBody f) :
      transferOf dir chk (frameCrc f) body = .transfer dir chk (bytesOfFrame f) := by
    rw [h, transferOf, frameOf_frameCrc_frameBody]
  cases dir with
  | request =>
    obtain ⟨h, hrow⟩ | ⟨h, hrow⟩ := decodeRequestFrame_cases chk f <;> rw [decodeFrame, hrow]
    · exact frame_of_body (readBody_eq_frameBody h)
    · exact frame_of_body (writeBody_eq_frameBody h)
  | reply =>
    obtain ⟨h, hrow⟩ | ⟨h, hrow⟩ | ⟨h, hrow⟩ | ⟨h, hrow⟩ := decodeReplyFrame_cases chk f <;> rw [decodeFrame, hrow]
    · exact frame_of_body (reply16Body_eq_frameBody h)
    · exact frame_of_body (reply22Body_eq_frameBody h)
    · exact frame_of_body (criticalBody_eq_frameBody h)
    · exact frame_of_body (reservedModeBody_eq_frameBody h)

/-- What decodes is a command record or the four bytes of a frame. -/
theorem decode_eq_ok_iff {p : Presented} {i : Instr} : decode p = .ok i ↔
    (∃ c, p = .command c ∧ decodeCommand c = i) ∨
      ∃ dir chk f, p = .transfer dir chk (bytesOfFrame f) ∧ decodeFrame dir chk f = i := by
  constructor
  · intro h
    cases p with
    | command c => exact .inl ⟨c, rfl, Except.ok.inj h⟩
    | transfer dir chk bytes =>
      obtain ⟨rx0, rx1, rx2, rx3, rfl, -⟩ | ⟨-, hnone⟩ := frameOfBytes_cases bytes
      · rw [← bytesOfFrame_append] at h ⊢
        rw [decode_transfer_bytesOfFrame] at h
        exact .inr ⟨dir, chk, _, rfl, Except.ok.inj h⟩
      · simp [decode, hnone] at h
  · rintro (⟨c, rfl, rfl⟩ | ⟨dir, chk, f, rfl, rfl⟩)
    · exact decode_command c
    · exact decode_transfer_bytesOfFrame dir chk f

/-- Settles O14: what was presented is a command record or a frame, and either is what its row encodes. -/
theorem encodeOfDecodeIsWhatWasPresented : Obligations.EncodeOfDecodeIsWhatWasPresented := by
  intro p i h
  obtain ⟨c, rfl, rfl⟩ | ⟨dir, chk, f, rfl, rfl⟩ := decode_eq_ok_iff.mp h
  · exact encode_decodeCommand c
  · exact encode_decodeFrame dir chk f

/-- Settles O15: a transfer decodes where its bytes make a frame, which are those of length four. -/
theorem decoderAcceptsExactlyCommandsAndFrames : Obligations.DecoderAcceptsExactlyCommandsAndFrames := by
  intro p
  cases p with
  | command c => exact iff_of_true ⟨_, decode_command c⟩ rfl
  | transfer dir chk bytes =>
    obtain ⟨rx0, rx1, rx2, rx3, rfl, hsome⟩ | ⟨hlength, hnone⟩ := frameOfBytes_cases bytes
    · exact iff_of_true ⟨_, by rw [decode, hsome]⟩ rfl
    · exact iff_of_false (by simp [decode, hnone]) (by simpa [Presented.wf] using hlength)

end Sys2Proof
end

section
/-! PROOFS. What every instruction answers: a function of its fields and the configuration (R14, R34, R92). A frame
layout answers as the decoder of its direction (log entry 10). -/

namespace Sys2Proof.Machine

/-! ## The frame layouts as instructions -/

section
variable (s : State) (chk : Bit) (crc : Byte)

theorem exec_frameReadRequest (addrField : BitVec 7) (dontCare : BitVec 13) (addrLow : BitVec 3) :
    exec (.frameReadRequest chk crc addrField dontCare addrLow) s = .next (s.deliver
      (crcStage s.cfg chk crc (readBody addrField dontCare addrLow)
        (.request 0#1 addrField (dontCare ++ addrLow) (addrField ++ addrLow) crc))) := rfl

theorem exec_frameWriteRequest (addrField : BitVec 7) (value : BitVec 16) :
    exec (.frameWriteRequest chk crc addrField value) s = .next (s.deliver
      (crcStage s.cfg chk crc (writeBody addrField value)
        (.request 1#1 addrField value (addrField ++ 0#3) crc))) := rfl

theorem exec_frameStatusReply16 (status : BitVec 5) (rwEcho : Bit) (data : BitVec 16) :
    exec (.frameStatusReply16 chk crc status rwEcho data) s = .next (s.deliver
      (crcStage s.cfg chk crc (reply16Body status rwEcho data)
        (status16Outcome s.cfg status rwEcho data crc))) := rfl

theorem exec_frameStatusReply22 (data22 : BitVec 22) :
    exec (.frameStatusReply22 chk crc data22) s = .next (s.deliver
      (crcStage s.cfg chk crc (reply22Body data22) (.reply22 data22 crc))) := rfl

theorem exec_frameCriticalFault (ignored : BitVec 14) (bitmap : Byte) :
    exec (.frameCriticalFault chk crc ignored bitmap) s = .next (s.deliver
      (crcStage s.cfg chk crc (criticalBody ignored bitmap) (.critical bitmap crc))) := rfl

theorem exec_frameReservedReplyMode11 (raw : BitVec 22) :
    exec (.frameReservedReplyMode11 chk crc raw) s = .next (s.deliver
      (crcStage s.cfg chk crc (reservedModeBody raw) fun recomputed => .err (.reservedMode raw crc recomputed))) := rfl

end

section
variable {s : State} {i : Instr} {chk : Bit} {crc : Byte} {body : Body} {decoded : Byte → CodecOutcome}

theorem exec_of_crcStage_passed (hexec : exec i s = .next (s.deliver (crcStage s.cfg chk crc body decoded)))
    (h : chk = 0#1 ∨ crc = crc8 s.cfg body) : exec i s = .next (s.deliver (decoded (crc8 s.cfg body))) := by
  rw [hexec, crcStage_of_passed _ h]

theorem exec_of_crcStage_mismatch (hexec : exec i s = .next (s.deliver (crcStage s.cfg 1#1 crc body decoded)))
    (h : crc ≠ crc8 s.cfg body) : exec i s = .next (s.deliver (.err (.crcMismatch crc (crc8 s.cfg body)))) := by
  rw [hexec, crcStage_of_mismatch _ h]

end

/-- Settles O37: the CRC stage lets the layout through, and the outcome is then its own fields. -/
theorem requestFrameRowsAnswerTheirFields : Obligations.RequestFrameRowsAnswerTheirFields := by
  constructor
  · rintro s chk crc _ addrField dontCare addrLow _ rfl hpassed rfl
    exact exec_of_crcStage_passed (exec_frameReadRequest ..) hpassed
  · rintro s chk crc _ addrField value _ rfl hpassed rfl
    exact exec_of_crcStage_passed (exec_frameWriteRequest ..) hpassed

/-- Settles O38: the CRC stage lets the layout through, and the outcome is then its own fields. -/
theorem replyFrameRowsAnswerTheirFields : Obligations.ReplyFrameRowsAnswerTheirFields := by
  refine ⟨?_, ?_, ?_, ?_⟩
  · rintro s chk crc _ rwEcho data _ rfl hpassed rfl
    exact exec_of_crcStage_passed (exec_frameStatusReply16 ..) hpassed
  · rintro s chk crc _ data22 _ rfl hpassed rfl
    exact exec_of_crcStage_passed (exec_frameStatusReply22 ..) hpassed
  · rintro s chk crc _ ignored bitmap _ rfl hpassed rfl
    exact exec_of_crcStage_passed (exec_frameCriticalFault ..) hpassed
  · rintro s chk crc _ raw _ rfl hpassed rfl
    exact exec_of_crcStage_passed (exec_frameReservedReplyMode11 ..) hpassed

/-- Settles O39: the CRC stage of each layout stops at the wrong CRC; past it, a status that is not zero has an entry in
the table of classes. -/
theorem frameRowsReportTheirErrors : Obligations.FrameRowsReportTheirErrors := by
  refine ⟨?_, ?_, ?_, ?_, ?_, ?_, ?_⟩
  · rintro s crc _ addrField dontCare addrLow _ rfl hne rfl
    exact exec_of_crcStage_mismatch (exec_frameReadRequest ..) hne
  · rintro s crc _ addrField value _ rfl hne rfl
    exact exec_of_crcStage_mismatch (exec_frameWriteRequest ..) hne
  · rintro s crc _ status rwEcho data _ rfl hne rfl
    exact exec_of_crcStage_mismatch (exec_frameStatusReply16 ..) hne
  · rintro s crc _ data22 _ rfl hne rfl
    exact exec_of_crcStage_mismatch (exec_frameStatusReply22 ..) hne
  · rintro s crc _ ignored bitmap _ rfl hne rfl
    exact exec_of_crcStage_mismatch (exec_frameCriticalFault ..) hne
  · rintro s crc _ raw _ rfl hne rfl
    exact exec_of_crcStage_mismatch (exec_frameReservedReplyMode11 ..) hne
  · rintro s chk crc _ status rwEcho data rfl hpassed hstatus
    refine ⟨_, _, getElem?_statusClass_eq_some_iff.mpr rfl, rfl, ?_⟩
    rw [exec_of_crcStage_passed (exec_frameStatusReply16 ..) hpassed, status16Outcome_of_ne_zero _ _ _ _ _ hstatus]
    rfl

/-! ## The answer of an instruction -/

/-- What an instruction answers. The state is no argument: it has no history to depend on (R14). -/
def answer (cfg : Config) : Instr → CodecOutcome
  | .crc8 _ a _ => .crc (crc8 cfg (operandMessage a))
  | .crcchk _ a _ => .crcChk (frameCrc a == crc8 cfg (frameBody a)) (frameCrc a) (crc8 cfg (frameBody a))
  | .encr _ a _ => .frame (sealFrame cfg (readBody (addrUpper (operandAddr a)) 0#13 (addrLower (operandAddr a))))
  | .encw _ a b =>
    if cfg.writeAddrLowPolicy = .reject ∧ addrLower (operandAddr a) ≠ 0#3 then .err (.writeAddrLow (operandAddr a))
    else .frame (sealFrame cfg (writeBody (addrUpper (operandAddr a)) b))
  | .decreq chk a _ => requestOutcome cfg chk a
  | .decrep chk a _ => replyOutcome cfg chk a
  | .reservedOp110 .. => .err (.illegalOp 0b110#3)
  | .reservedOp111 .. => .err (.illegalOp 0b111#3)
  | .frameReadRequest chk crc addrField dontCare addrLow =>
    requestOutcome cfg chk (frameOf crc (readBody addrField dontCare addrLow))
  | .frameWriteRequest chk crc addrField value => requestOutcome cfg chk (frameOf crc (writeBody addrField value))
  | .frameStatusReply16 chk crc status rwEcho data =>
    replyOutcome cfg chk (frameOf crc (reply16Body status rwEcho data))
  | .frameStatusReply22 chk crc data22 => replyOutcome cfg chk (frameOf crc (reply22Body data22))
  | .frameCriticalFault chk crc ignored bitmap =>
    replyOutcome cfg chk (frameOf crc (criticalBody ignored bitmap))
  | .frameReservedReplyMode11 chk crc raw => replyOutcome cfg chk (frameOf crc (reservedModeBody raw))

/-- R47: the data field of a read request holds the low address bits under the don't-care bits. -/
@[simp] theorem frameData_readBody (crc : Byte) (addrField : BitVec 7) (dontCare : BitVec 13) (addrLow : BitVec 3) :
    frameData (frameOf crc (readBody addrField dontCare addrLow)) = dontCare ++ addrLow := by
  rw [← frameDontCare_append_frameAddrLow, frameDontCare_readBody, frameAddrLow_readBody]

section
variable (cfg : Config) (chk : Bit) (crc : Byte)

theorem requestOutcome_readBody (addrField : BitVec 7) (dontCare : BitVec 13) (addrLow : BitVec 3) :
    requestOutcome cfg chk (frameOf crc (readBody addrField dontCare addrLow)) =
      crcStage cfg chk crc (readBody addrField dontCare addrLow)
        (.request 0#1 addrField (dontCare ++ addrLow) (addrField ++ addrLow) crc) := by
  simp [requestOutcome, requestAddr]

theorem requestOutcome_writeBody (addrField : BitVec 7) (value : BitVec 16) :
    requestOutcome cfg chk (frameOf crc (writeBody addrField value)) =
      crcStage cfg chk crc (writeBody addrField value) (.request 1#1 addrField value (addrField ++ 0#3) crc) := by
  simp [requestOutcome, requestAddr]

theorem replyOutcome_frameOf {body : Body} {decoded : Byte → CodecOutcome}
    (h : ∀ recomputed, replyOfMode cfg (frameOf crc body) recomputed = decoded recomputed) :
    replyOutcome cfg chk (frameOf crc body) = crcStage cfg chk crc body decoded := by
  rw [replyOutcome, frameCrc_frameOf, frameBody_frameOf, funext h]

end

/-- R34, R92: an instruction delivers its answer, whatever it is, and does nothing else. -/
theorem exec_eq_deliver_answer (i : Instr) (s : State) : exec i s = .next (s.deliver (answer s.cfg i)) := by
  cases i with
  | encw chk a b =>
    by_cases h : s.cfg.writeAddrLowPolicy = .reject ∧ addrLower (operandAddr a) ≠ 0#3
    · rw [exec_encw_of_rejected s chk a b h, answer, if_pos h]
    · rw [exec_encw_of_accepted s chk a b h, answer, if_neg h]
  | frameReadRequest => rw [exec_frameReadRequest, answer, requestOutcome_readBody]
  | frameWriteRequest => rw [exec_frameWriteRequest, answer, requestOutcome_writeBody]
  | frameStatusReply16 =>
    rw [exec_frameStatusReply16, answer, replyOutcome_frameOf]
    intro recomputed
    simp [replyOfMode_00]
  | frameStatusReply22 =>
    rw [exec_frameStatusReply22, answer, replyOutcome_frameOf]
    intro recomputed
    simp [replyOfMode_01]
  | frameCriticalFault =>
    rw [exec_frameCriticalFault, answer, replyOutcome_frameOf]
    intro recomputed
    simp [replyOfMode_10]
  | frameReservedReplyMode11 =>
    rw [exec_frameReservedReplyMode11, answer, replyOutcome_frameOf]
    intro recomputed
    simp [replyOfMode_11]
  | _ => rfl

theorem exec_eq_next_iff {i : Instr} {s t : State} : exec i s = .next t ↔ s.deliver (answer s.cfg i) = t := by
  rw [exec_eq_deliver_answer, Host.Outcome.next.injEq]

/-- Settles O49: the outcome is the instruction's answer under the configuration. -/
theorem everyInstructionAnswersWithoutHistory : Obligations.EveryInstructionAnswersWithoutHistory := by
  intro i cfg
  refine ⟨answer cfg i, ?_⟩
  rintro s rfl
  exact exec_eq_deliver_answer i s

/-- R8: the names of the fault bits are no part of what an answer is made of. -/
theorem answer_faultBitMeaning (cfg : Config) (names : Vector String 8) (i : Instr) :
    answer { cfg with faultBitMeaning := names } i = answer cfg i := by
  have reply (chk : Bit) (f : Frame) :
      replyOutcome { cfg with faultBitMeaning := names } chk f = replyOutcome cfg chk f :=
    replyOutcome_congr rfl (.inl rfl)
  cases i with
  | decrep | frameStatusReply16 | frameStatusReply22 | frameCriticalFault | frameReservedReplyMode11 => exact reply ..
  | _ => rfl

/-- Settles O51: both states deliver the one answer. -/
theorem noAnswerDependsOnFaultBitMeaning : Obligations.NoAnswerDependsOnFaultBitMeaning := by
  intro i s names
  refine ⟨answer s.cfg i, exec_eq_deliver_answer i s, ?_⟩
  rw [exec_eq_deliver_answer, answer_faultBitMeaning]
  rfl

/-! ## Transferred frames -/

/-- R46: each of the two request layouts is a row that answers as DECREQ. -/
theorem answer_decodeRequestFrame (cfg : Config) (chk : Bit) (f : Frame) :
    answer cfg (decodeRequestFrame chk f) = requestOutcome cfg chk f := by
  obtain ⟨h, hrow⟩ | ⟨h, hrow⟩ := decodeRequestFrame_cases chk f <;> rw [hrow, answer]
  · rw [readBody_eq_frameBody h, frameOf_frameCrc_frameBody]
  · rw [writeBody_eq_frameBody h, frameOf_frameCrc_frameBody]

/-- R51: each of the four reply layouts is a row that answers as DECREP. -/
theorem answer_decodeReplyFrame (cfg : Config) (chk : Bit) (f : Frame) :
    answer cfg (decodeReplyFrame chk f) = replyOutcome cfg chk f := by
  obtain ⟨h, hrow⟩ | ⟨h, hrow⟩ | ⟨h, hrow⟩ | ⟨h, hrow⟩ := decodeReplyFrame_cases chk f <;> rw [hrow, answer]
  · rw [reply16Body_eq_frameBody h, frameOf_frameCrc_frameBody]
  · rw [reply22Body_eq_frameBody h, frameOf_frameCrc_frameBody]
  · rw [criticalBody_eq_frameBody h, frameOf_frameCrc_frameBody]
  · rw [reservedModeBody_eq_frameBody h, frameOf_frameCrc_frameBody]

/-- Settles O40: the bytes decode to the row of the frame's layout, which answers as its decoder. -/
theorem transferredFramesAreAnsweredAsCommands : Obligations.TransferredFramesAreAnsweredAsCommands := by
  intro s chk f b
  constructor
  · refine ⟨_, decode_transfer_bytesOfFrame .request chk f, ?_⟩
    rw [exec_decreq, exec_eq_deliver_answer, decodeFrame, answer_decodeRequestFrame]
  · refine ⟨_, decode_transfer_bytesOfFrame .reply chk f, ?_⟩
    rw [exec_decrep, exec_eq_deliver_answer, decodeFrame, answer_decodeReplyFrame]

/-! ## What every answer satisfies -/

/-- R70, R75: a stopped decode is consistent, because its two CRCs differ. -/
theorem crcStage_consistent {cfg : Config} {chk : Bit} {rx : Byte} {body : Body} {decoded : Byte → CodecOutcome}
    (h : (decoded (crc8 cfg body)).Consistent cfg) : (crcStage cfg chk rx body decoded).Consistent cfg := by
  obtain ⟨-, hne, hstop⟩ | ⟨-, hdecoded⟩ := crcStage_cases cfg chk rx body decoded
  · rw [hstop]
    exact hne
  · rw [hdecoded]
    exact h

/-- R71: the low address bits are bits of the data field of a read, and zeros for a write. -/
theorem requestAddr_eq (f : Frame) :
    requestAddr f = frameAddrField f ++ (if frameRw f = 0#1 then (frameData f).extractLsb' 0 3 else 0#3) := by
  have low : (frameData f).extractLsb' 0 3 = frameAddrLow f := BitVec.extractLsb'_extractLsb'_of_le (by decide)
  rw [requestAddr, low, apply_ite (frameAddrField f ++ ·)]

theorem requestOutcome_consistent (cfg : Config) (chk : Bit) (f : Frame) :
    (requestOutcome cfg chk f).Consistent cfg := by
  refine crcStage_consistent ⟨requestAddr_eq f, ?_⟩
  rw [requestFields_append]

theorem status16Outcome_consistent {cfg : Config} {status : BitVec 5} {rwEcho : Bit} {data : BitVec 16} {rx crc : Byte}
    (h : crc = crc8 cfg (reply16Body status rwEcho data)) :
    (status16Outcome cfg status rwEcho data rx crc).Consistent cfg := by
  obtain ⟨rfl, hanswer⟩ | ⟨hstatus, hanswer⟩ := status16Outcome_cases cfg status rwEcho data rx crc <;> rw [hanswer]
  · exact h
  · exact ⟨hstatus, rfl, h⟩

theorem replyOutcome_consistent (cfg : Config) (chk : Bit) (f : Frame) : (replyOutcome cfg chk f).Consistent cfg := by
  refine crcStage_consistent ?_
  obtain ⟨h, hreply⟩ | ⟨h, hreply⟩ | ⟨h, hreply⟩ | ⟨h, hreply⟩ :=
    replyOfMode_cases cfg f (crc8 cfg (frameBody f)) <;> rw [hreply]
  · exact status16Outcome_consistent (congrArg _ (reply16Body_eq_frameBody h).symm)
  · exact congrArg _ (reply22Body_eq_frameBody h).symm
  · exact ⟨frameIgnored f, congrArg _ (criticalBody_eq_frameBody h).symm⟩
  · exact congrArg _ (reservedModeBody_eq_frameBody h).symm

/-- R63, R66, R70, R74, R89: every answer satisfies the rules of its own kind. -/
theorem answer_consistent (cfg : Config) (i : Instr) : (answer cfg i).Consistent cfg := by
  cases i with
  | crc8 => trivial
  | crcchk => rfl
  | encr chk a b => exact ⟨frameCrc_sealFrame _ _, fun _ => frameDontCare_readBody ..⟩
  | encw chk a b =>
    rw [answer]
    split_ifs with hrejected
    · exact hrejected
    · refine ⟨frameCrc_sealFrame _ _, fun hread => ?_⟩
      rw [sealFrame, frameRw_writeBody] at hread
      exact absurd hread (by decide)
  | reservedOp110 => exact .inl rfl
  | reservedOp111 => exact .inr rfl
  | decreq | frameReadRequest | frameWriteRequest => exact requestOutcome_consistent ..
  | decrep | frameStatusReply16 | frameStatusReply22 | frameCriticalFault | frameReservedReplyMode11 =>
    exact replyOutcome_consistent ..

/-- R88: the codes in use end at 5. -/
theorem CodecOutcome.res_le_five (o : CodecOutcome) : o.res ≤ 5 := by
  cases o with
  | err e => cases e <;> simp [res, CodecError.code]
  | _ => simp [res]

/-- Settles O47: the output holds the answer, and no outcome has a code above 5. -/
theorem resultCodesSixAndSevenAreNeverProduced : Obligations.ResultCodesSixAndSevenAreNeverProduced := by
  intro s t i h
  obtain rfl := exec_eq_next_iff.mp h
  have code_le := (answer s.cfg i).res_le_five
  exact ⟨_, rfl, fun h6 => absurd (h6 ▸ code_le) (by decide), fun h7 => absurd (h7 ▸ code_le) (by decide)⟩

end Sys2Proof.Machine
end

section
/-! PROOFS. What one action of the host and one step can do (R13, R107). -/

namespace Sys2Proof.Machine

/-- All that an action of the host can do in a state, with what decides it. -/
inductive ActionResult (s : State) : HostAction → Host.Outcome State Fault Refusal → Prop
  | presented {p : Presented} {i : Instr} (h : decode p = .ok i) :
      ActionResult s (.present p) (.next (s.deliver (answer s.cfg i)))
  | notAFrame {p : Presented} {n : Nat} (h : decode p = .error (.notFourBytes n)) :
      ActionResult s (.present p) (.refused (.notAFrame n))
  | assembled {l : AsmLine} {c : Command} (h : assemble s.observed l = .ok c) :
      ActionResult s (.line l) (.next (s.deliver (answer s.cfg (decodeCommand c))))
  | noSuchFrame {l : AsmLine} {k : Nat} (h : assemble s.observed l = .error (.noSuchFrame k)) :
      ActionResult s (.line l) (.refused (.noSuchFrame k))
  | read {o : CodecOutcome} (h : s.output = some o) : ActionResult s .readOutput (.next s)
  | unset (h : s.output = none) : ActionResult s .readOutput (.fault .outcomeUnset)
  | pulse : ActionResult s .pulseReset (.next s)
  | inReset (p : Presented) : ActionResult s (.presentInReset p) (.refused .commandDuringReset)

theorem runAction_result (act : HostAction) (s : State) : ActionResult s act (runAction act s) := by
  cases act with
  | present p =>
    rw [runAction]
    obtain ⟨i, h, hp⟩ | ⟨n, h, hp⟩ := present_cases p s <;> rw [hp]
    · rw [exec_eq_deliver_answer]
      exact .presented h
    · exact .notAFrame h
  | line l =>
    rw [runAction]
    obtain ⟨c, h, hl⟩ | ⟨k, h, hl⟩ := presentLine_cases l s <;> rw [hl]
    · rw [exec_eq_deliver_answer]
      exact .assembled h
    · exact .noSuchFrame h
  | readOutput =>
    rw [runAction]
    obtain ⟨h, hread⟩ | ⟨o, h, hread⟩ := readOutput_cases s <;> rw [hread]
    · exact .unset h
    · exact .read h
  | pulseReset => exact .pulse
  | presentInReset p => exact .inReset p

theorem ActionResult.runAction_eq {s : State} {act : HostAction} {r : Host.Outcome State Fault Refusal}
    (h : ActionResult s act r) : runAction act s = r := by
  cases h with
  | presented h => simp [runAction, present, h, exec_eq_deliver_answer]
  | notAFrame h => simp [runAction, present, h]
  | assembled h => simp [runAction, presentLine, h, exec_eq_deliver_answer]
  | noSuchFrame h => simp [runAction, presentLine, h]
  | read h => simp [runAction, readOutput, h]
  | unset h => exact runAction_readOutput_of_error (readOutput_of_output_none h)
  | pulse => rfl
  | inReset p => rfl

/-- A step is refused at the end of the run, or does what its action does. -/
theorem step_cases (s : State) :
    (s.pending = [] ∧ step s = .refused .noHostAction) ∨
      ∃ act rest, s.pending = act :: rest ∧ ActionResult (s.withPending rest) act (step s) := by
  cases hp : s.pending with
  | nil => exact .inl ⟨rfl, by simp [step, hp]⟩
  | cons act rest =>
    refine .inr ⟨act, rest, rfl, ?_⟩
    rw [step_of_pending_cons hp]
    exact runAction_result act _

theorem step_eq_of_result {s : State} {act : HostAction} {rest : List HostAction}
    {r : Host.Outcome State Fault Refusal} (hp : s.pending = act :: rest)
    (h : ActionResult (s.withPending rest) act r) : step s = r := by
  rw [step_of_pending_cons hp, h.runAction_eq]

/-- Settles O1: the item presented is the action the step takes. -/
theorem stepRunsThePresentedInstruction : Obligations.StepRunsThePresentedInstruction := by
  intro s p rest i hp hdecode
  rw [step_eq_of_result hp (.presented hdecode), exec_eq_deliver_answer]
  rfl

/-- Settles O2: the line is assembled against the outcomes so far, which taking the action leaves as they are. -/
theorem stepRunsTheAssembledLine : Obligations.StepRunsTheAssembledLine := by
  intro s l rest c hp hassemble
  rw [step_eq_of_result hp (.assembled hassemble), exec_eq_deliver_answer]
  rfl

theorem decodeTableWord_eq_some_iff {nbits w : Nat} {i : Instr} :
    decodeTableWord nbits w = some i ↔ decode (presentedOfBits nbits w) = .ok i := by
  cases h : decode (presentedOfBits nbits w) <;> simp [decodeTableWord, h]

/-- Settles O3: the word is presented first, and taking it from the list gives the state back. -/
theorem tableWordIsRunAsDecoded : Obligations.TableWordIsRunAsDecoded := by
  intro s nbits w i h
  exact stepRunsThePresentedInstruction (s.withFetchWord nbits w) _ s.pending i rfl
    (decodeTableWord_eq_some_iff.mp h)

/-- Settles O4: only a step with nothing pending does not do what its action does. -/
theorem endOfRunIsRefusedByName : Obligations.EndOfRunIsRefusedByName := by
  intro s hnil
  obtain ⟨-, hstep⟩ | ⟨act, rest, hcons, -⟩ := step_cases s
  · exact hstep
  · rw [hnil] at hcons
    cases hcons

/-- Settles O6: the read finds the value, which taking the action leaves at the output. -/
theorem readingTheOutputChangesNothing : Obligations.ReadingTheOutputChangesNothing := by
  intro s rest o hp hout
  refine ⟨?_, step_eq_of_result hp (.read hout)⟩
  obtain ⟨hnone, -⟩ | ⟨o', hsome, hread⟩ := readOutput_cases s
  · rw [hout] at hnone
    cases hnone
  · rw [hread, Option.some.inj (hsome.symm.trans hout)]

/-- Settles O7: the reset state is written out, with the default configuration. -/
theorem resetLeavesNoOutcomeAndTheDefaults : Obligations.ResetLeavesNoOutcomeAndTheDefaults :=
  ⟨rfl, rfl, rfl, rfl, rfl, rfl, rfl⟩

/-- Settles O9: what presents during reset has this one result. -/
theorem commandDuringResetIsRefused : Obligations.CommandDuringResetIsRefused :=
  fun _ p _ hp => step_eq_of_result hp (.inReset p)

/-! ## Which steps complete, fault or are refused -/

theorem assemble_eq_ok_iff_operands_exist {observed : List CodecOutcome} {l : AsmLine} :
    (∃ c, assemble observed l = .ok c) ↔ l.operands.all (operandExists observed) = true := by
  rw [List.all_eq_true]
  obtain ⟨c, hall, hok⟩ | ⟨k, hmem, hmissing, herror⟩ := assemble_cases observed l
  · exact iff_of_true ⟨c, hok⟩ hall
  · refine iff_of_false (by simp [herror]) fun hall => ?_
    rw [hall _ hmem] at hmissing
    cases hmissing

/-- A line is rejected exactly where an operand `%k` names no frame. -/
theorem assemble_eq_error_iff {observed : List CodecOutcome} {l : AsmLine} :
    (∃ k, assemble observed l = .error (.noSuchFrame k)) ↔
      ∃ k, .ref k ∈ l.operands ∧ ∀ n f, k = n + 1 → observed[n]? ≠ some (.frame f) := by
  have missing_iff (k : Nat) : operandExists observed (.ref k) = false ↔
      ∀ n f, k = n + 1 → observed[n]? ≠ some (.frame f) := by
    simp only [← Bool.not_eq_true, operandExists_ref_iff, not_exists, not_and, ne_eq]
  simp only [← missing_iff]
  obtain ⟨c, hall, hok⟩ | ⟨k, hmem, hmissing, herror⟩ := assemble_cases observed l
  · refine iff_of_false (by simp [hok]) ?_
    rintro ⟨k, hmem, hmissing⟩
    rw [hall _ hmem] at hmissing
    cases hmissing
  · exact iff_of_true ⟨k, herror⟩ ⟨k, hmem, hmissing⟩

theorem ActionResult.next_iff_allowed {s : State} {act : HostAction} {r : Host.Outcome State Fault Refusal}
    (h : ActionResult s act r) : (∃ t, r = .next t) ↔ actionAllowed s act = true := by
  cases h with
  | presented h => exact iff_of_true ⟨_, rfl⟩ ((decoderAcceptsExactlyCommandsAndFrames _).mp ⟨_, h⟩)
  | notAFrame h =>
    refine iff_of_false (by simp) fun hwf => ?_
    obtain ⟨i, hi⟩ := (decoderAcceptsExactlyCommandsAndFrames _).mpr hwf
    rw [h] at hi
    cases hi
  | assembled h => exact iff_of_true ⟨_, rfl⟩ (assemble_eq_ok_iff_operands_exist.mp ⟨_, h⟩)
  | noSuchFrame h =>
    refine iff_of_false (by simp) fun hall => ?_
    obtain ⟨c, hc⟩ := assemble_eq_ok_iff_operands_exist.mpr hall
    rw [h] at hc
    cases hc
  | read h => exact iff_of_true ⟨_, rfl⟩ (by simp [actionAllowed, h])
  | unset h => exact iff_of_false (by simp) (by simp [actionAllowed, h])
  | pulse => exact iff_of_true ⟨_, rfl⟩ rfl
  | inReset p => exact iff_of_false (by simp) (by simp [actionAllowed])

/-- Settles O10: at the end of the run there is no action; before it, the step does what its first action does. -/
theorem stepCompletesExactlyOnAllowedActions : Obligations.StepCompletesExactlyOnAllowedActions := by
  intro s
  obtain ⟨hnil, hstep⟩ | ⟨act, rest, hp, hresult⟩ := step_cases s
  · simp [hnil, hstep]
  · rw [hresult.next_iff_allowed]
    constructor
    · exact fun hallowed => ⟨act, rest, hp, hallowed⟩
    · rintro ⟨act', rest', hp', hallowed⟩
      rw [hp] at hp'
      cases hp'
      exact hallowed

/-- Settles O11: of all that a step can do, one is a fault. -/
theorem onlyReadingAnUnsetOutputFaults : Obligations.OnlyReadingAnUnsetOutputFaults := by
  intro s r
  constructor
  · intro hfault
    obtain ⟨-, hstep⟩ | ⟨act, rest, hp, hresult⟩ := step_cases s
    · simp [hstep] at hfault
    · rw [hfault] at hresult
      cases hresult with
      | unset hout => exact ⟨rfl, hout, rest, hp⟩
  · rintro ⟨rfl, hout, rest, hp⟩
    exact step_eq_of_result hp (.unset hout)

/-- Settles O57: of all that a step can do, one is this refusal, and it is that of a rejected line. -/
theorem linesAreRefusedOnlyForAMissingFrame : Obligations.LinesAreRefusedOnlyForAMissingFrame := by
  intro s
  constructor
  · rintro ⟨k, hrefused⟩
    obtain ⟨-, hstep⟩ | ⟨act, rest, hp, hresult⟩ := step_cases s
    · simp [hstep] at hrefused
    · rw [hrefused] at hresult
      cases hresult with
      | noSuchFrame herror =>
        obtain ⟨k', hmem, hmissing⟩ := assemble_eq_error_iff.mp ⟨_, herror⟩
        exact ⟨_, rest, k', hp, hmem, hmissing⟩
  · rintro ⟨l, rest, k, hp, hmem, hmissing⟩
    obtain ⟨k', herror⟩ := assemble_eq_error_iff.mpr ⟨k, hmem, hmissing⟩
    exact ⟨k', step_eq_of_result hp (.noSuchFrame herror)⟩

/-! ## What a step that completes keeps -/

/-- A step that completes takes its action from the list and delivers one answer at most. -/
theorem step_next_cases {s t : State} (h : step s = .next t) :
    ∃ rest, t = s.withPending rest ∨ ∃ i, t = (s.withPending rest).deliver (answer s.cfg i) := by
  obtain ⟨-, hstep⟩ | ⟨act, rest, -, hresult⟩ := step_cases s
  · simp [hstep] at h
  · rw [h] at hresult
    refine ⟨rest, ?_⟩
    cases hresult with
    | presented | assembled => exact .inr ⟨_, rfl⟩
    | read | pulse => exact .inl rfl

theorem step_cfg {s t : State} (h : step s = .next t) : t.cfg = s.cfg := by
  obtain ⟨rest, rfl | ⟨i, rfl⟩⟩ := step_next_cases h <;> rfl

/-- R24, R110: one more outcome, consistent under the configuration, keeps the invariant. -/
theorem State.Inv.deliver {s : State} (hinv : s.Inv) {o : CodecOutcome} (ho : o.Consistent s.cfg) :
    (s.deliver o).Inv where
  output_is_last := by simp
  observed_consistent := by
    intro o' hmem
    rw [State.deliver_observed, List.mem_append, List.mem_singleton] at hmem
    obtain hmem | rfl := hmem
    · exact hinv.observed_consistent o' hmem
    · exact ho

/-- The invariant does not speak of what the host has still to do. -/
theorem State.Inv.withPending {s : State} (hinv : s.Inv) (rest : List HostAction) : (s.withPending rest).Inv :=
  ⟨hinv.output_is_last, hinv.observed_consistent⟩

/-- Settles O56: a step delivers an answer, which is consistent, or no outcome at all. -/
theorem everyStepKeepsTheInvariant : Obligations.EveryStepKeepsTheInvariant := by
  intro s t hinv hstep
  obtain ⟨rest, rfl | ⟨i, rfl⟩⟩ := step_next_cases hstep
  · exact hinv.withPending rest
  · exact (hinv.withPending rest).deliver (answer_consistent s.cfg i)

/-- Settles O55: no outcome, and no observation. -/
theorem invariantHoldsAfterReset : Obligations.InvariantHoldsAfterReset :=
  ⟨rfl, fun _ hmem => absurd hmem List.not_mem_nil⟩

end Sys2Proof.Machine
end

section
/-! PROOFS. Runs of steps (R26, R34, R37, R104, R110). -/

namespace Sys2Proof.Machine

/-! ## A run, step by step -/

section
variable {n : Nat} {s t : State}

theorem run_succ_of_next (h : step s = .next t) : core.run (n + 1) s = core.run n t := by
  have hcore : core.step s = .next t := h
  simp [Host.Core.run, hcore]

theorem run_succ_of_fault {r : Fault} (h : step s = .fault r) : core.run (n + 1) s = .fault r := by
  have hcore : core.step s = .fault r := h
  simp [Host.Core.run, hcore]

theorem run_succ_of_refused {r : Refusal} (h : step s = .refused r) : core.run (n + 1) s = .refused r := by
  have hcore : core.step s = .refused r := h
  simp [Host.Core.run, hcore]

/-- A run that completes is a step that completes and the rest of the run. -/
theorem run_succ_eq_next (h : core.run (n + 1) s = .next t) : ∃ u, step s = .next u ∧ core.run n u = .next t := by
  cases hstep : step s with
  | next u => exact ⟨u, rfl, (run_succ_of_next hstep).symm.trans h⟩
  | fault r => exact nomatch (run_succ_of_fault hstep).symm.trans h
  | refused r => exact nomatch (run_succ_of_refused hstep).symm.trans h

/-- What every step keeps, every run keeps. -/
theorem run_keeps {P : State → Prop} (hstep : ∀ s t, P s → step s = .next t → P t) (hs : P s)
    (h : core.run n s = .next t) : P t := by
  induction n generalizing s with
  | zero => exact Host.Outcome.next.inj h ▸ hs
  | succ n ih =>
    obtain ⟨u, hu, hrest⟩ := run_succ_eq_next h
    exact ih (hstep s u hs hu) hrest

end

/-- Settles O52: no step changes the configuration. -/
theorem configurationIsConstantForARun : Obligations.ConfigurationIsConstantForARun :=
  fun _ s _ => run_keeps (P := fun u => u.cfg = s.cfg) (fun _ _ hcfg hstep => (step_cfg hstep).trans hcfg) rfl

/-! ## A reset pulse -/

/-- R14: no action reads what the host has still to do, so the list rides along with what the action does. -/
theorem step_withPending_cons_cases (s : State) (act : HostAction) :
    (∃ t : State, ∀ rest, step (s.withPending (act :: rest)) = .next (t.withPending rest)) ∨
      (∃ r, ∀ rest, step (s.withPending (act :: rest)) = .fault r) ∨
      ∃ r, ∀ rest, step (s.withPending (act :: rest)) = .refused r := by
  have hresult := runAction_result act s
  generalize runAction act s = r at hresult
  cases hresult with
  | presented h => exact .inl ⟨s.deliver (answer s.cfg _), fun _ => step_eq_of_result rfl (.presented h)⟩
  | assembled h => exact .inl ⟨s.deliver (answer s.cfg _), fun _ => step_eq_of_result rfl (.assembled h)⟩
  | read h => exact .inl ⟨s, fun _ => step_eq_of_result rfl (.read h)⟩
  | pulse => exact .inl ⟨s, fun _ => step_eq_of_result rfl .pulse⟩
  | unset h => exact .inr (.inl ⟨_, fun _ => step_eq_of_result rfl (.unset h)⟩)
  | notAFrame h => exact .inr (.inr ⟨_, fun _ => step_eq_of_result rfl (.notAFrame h)⟩)
  | noSuchFrame h => exact .inr (.inr ⟨_, fun _ => step_eq_of_result rfl (.noSuchFrame h)⟩)
  | inReset p => exact .inr (.inr ⟨_, fun _ => step_eq_of_result rfl (.inReset p)⟩)

theorem run_pulseReset (s : State) (before after : List HostAction) (n : Nat) :
    core.run (before.length + 1 + n) (s.withPending (before ++ .pulseReset :: after)) =
      core.run (before.length + n) (s.withPending (before ++ after)) := by
  induction before generalizing s with
  | nil =>
    rw [List.length_nil, Nat.zero_add, Nat.zero_add, Nat.add_comm 1 n]
    exact run_succ_of_next rfl
  | cons act before ih =>
    have length_pulse : (act :: before).length + 1 + n = before.length + 1 + n + 1 := by rw [List.length_cons]; omega
    have length_plain : (act :: before).length + n = before.length + n + 1 := by rw [List.length_cons]; omega
    rw [length_pulse, length_plain]
    obtain ⟨t, h⟩ | ⟨r, h⟩ | ⟨r, h⟩ := step_withPending_cons_cases s act
    · exact ((run_succ_of_next (h _)).trans (ih t)).trans (run_succ_of_next (h _)).symm
    · exact (run_succ_of_fault (h _)).trans (run_succ_of_fault (h _)).symm
    · exact (run_succ_of_refused (h _)).trans (run_succ_of_refused (h _)).symm

/-- Settles O8, by induction on the actions before the pulse: both runs take the same step for each. -/
theorem resetPulseChangesNoLaterOutcome : Obligations.ResetPulseChangesNoLaterOutcome := run_pulseReset

/-! ## A run of commands -/

/-- The answers to a list of commands, each alone (R37). -/
def answers (cfg : Config) (cs : List Command) : List CodecOutcome := cs.map fun c => answer cfg (decodeCommand c)

/-- The host's actions that present a list of commands. -/
def presentAll (cs : List Command) : List HostAction := cs.map fun c => .present (.command c)

/-- R24, R110: outcomes appear at the output one after the other, and all of them in the observation. -/
def State.deliverAll (s : State) (os : List CodecOutcome) : State :=
  { s with output := (os.getLast?).or s.output, observed := s.observed ++ os }

@[simp] theorem State.deliverAll_nil (s : State) : s.deliverAll [] = s := by simp [State.deliverAll]

theorem State.deliver_deliverAll (s : State) (o : CodecOutcome) (os : List CodecOutcome) :
    (s.deliver o).deliverAll os = s.deliverAll (o :: os) := by
  cases h : os.getLast? <;> simp [State.deliverAll, State.deliver, List.getLast?_cons, h]

theorem step_of_pending_command {s : State} {c : Command} {rest : List HostAction}
    (hp : s.pending = .present (.command c) :: rest) :
    step s = .next ((s.withPending rest).deliver (answer s.cfg (decodeCommand c))) :=
  step_eq_of_result hp (.presented (decode_command c))

/-- R110: a run of commands delivers their answers, in order, and does nothing else. -/
theorem run_presentAll (s : State) (cs : List Command) (rest : List HostAction)
    (hp : s.pending = presentAll cs ++ rest) :
    core.run cs.length s = .next ((s.withPending rest).deliverAll (answers s.cfg cs)) := by
  induction cs generalizing s with
  | nil =>
    obtain rfl : s.pending = rest := hp
    simp [answers, Host.Core.run]
  | cons c cs ih =>
    have hstep := step_of_pending_command (c := c) hp
    rw [List.length_cons, run_succ_of_next hstep, ih _ rfl]
    exact congrArg Host.Outcome.next (State.deliver_deliverAll (s.withPending rest) _ _)

/-- Settles O53: the outcomes are the answers, and a command's answer is the same in a state with no history. -/
theorem runObservesOneOutcomeForEachCommand : Obligations.RunObservesOneOutcomeForEachCommand := by
  intro s cs rest hp
  refine ⟨answers s.cfg cs, run_presentAll s cs rest hp, ?_⟩
  rw [answers, List.forall₂_map_right_iff, List.forall₂_same]
  exact fun c _ => ⟨_, exec_eq_deliver_answer _ _, rfl⟩

theorem run_presentAll_observed {s t : State} {cs : List Command} (hp : s.pending = presentAll cs)
    (h : core.run cs.length s = .next t) : t.observed = s.observed ++ answers s.cfg cs := by
  rw [run_presentAll s cs [] (by rw [hp, List.append_nil])] at h
  rw [← Host.Outcome.next.inj h]
  rfl

/-- Each command beside its own answer. -/
theorem zip_answers (cfg : Config) (cs : List Command) :
    cs.zip (answers cfg cs) = cs.map fun c => (c, answer cfg (decodeCommand c)) :=
  List.map_prod_left_eq_zip.symm

/-- Settles O54: both runs observe the answers under the one configuration, and a permutation of the commands is one of
the commands beside their answers. -/
theorem reorderedCommandsKeepTheirOutcomes : Obligations.ReorderedCommandsKeepTheirOutcomes := by
  intro s s' t t' cs cs' hcfg hperm hp hp' hrun hrun'
  refine ⟨answers s.cfg cs, answers s.cfg cs', run_presentAll_observed hp hrun,
    hcfg ▸ run_presentAll_observed hp' hrun', by simp [answers], by simp [answers], ?_⟩
  rw [zip_answers, zip_answers]
  exact hperm.map _

end Sys2Proof.Machine
end

section
/-! PROOFS. What becomes of an encoded request: checked (R46), decoded as a request (R64, R72) and as a reply (R87); and
the decoders' remaining answers (R56, R78). -/

namespace Sys2Proof.Machine

/-! ## Encoded requests -/

/-- R46, R67, R68: whichever encoder answers it, a frame carries its own CRC and the upper bits of its address. -/
theorem encoded_frame {s t : State} {chk : Bit} {a : BitVec 32} {b : BitVec 16} {f : Frame}
    (hexec : exec (.encr chk a b) s = .next t ∨ exec (.encw chk a b) s = .next t) (hout : t.output = some (.frame f)) :
    t.cfg = s.cfg ∧ frameCrc f = crc8 s.cfg (frameBody f) ∧ frameAddrField f = a.extractLsb' 3 7 := by
  rw [← addrUpper_operandAddr]
  obtain hread | hwrite := hexec
  · obtain rfl := exec_eq_next_iff.mp hread
    obtain rfl : sealFrame s.cfg _ = f := CodecOutcome.frame.inj (Option.some.inj hout)
    exact ⟨rfl, frameCrc_sealFrame _ _, frameAddrField_readBody ..⟩
  · obtain rfl := exec_eq_next_iff.mp hwrite
    have hanswer := Option.some.inj hout
    rw [answer] at hanswer
    split_ifs at hanswer
    obtain rfl := CodecOutcome.frame.inj hanswer
    exact ⟨rfl, frameCrc_sealFrame _ _, frameAddrField_writeBody ..⟩

/-- Settles O28: the frame carries its own CRC, and no step changes the parameters it is recomputed with. -/
theorem encodedFramesPassTheCheck : Obligations.EncodedFramesPassTheCheck := by
  intro s t chk chk' a b b' f hexec hout
  obtain ⟨hcfg, hcrc, -⟩ := encoded_frame hexec hout
  rw [← hcfg] at hcrc
  refine ⟨_, frameCrc f, exec_crcchk t chk' f b', ?_⟩
  rw [State.deliver_output, ← hcrc, beq_self_eq_true]

/-- Settles O44: the error's syndrome is not zero, so the CRC stage stops at the corrupted frame. -/
theorem corruptedRequestsAreNotDecoded : Obligations.CorruptedRequestsAreNotDecoded := by
  intro s t chk a b b' f e hpoly he hexec hout
  obtain ⟨hcfg, hcrc, -⟩ := encoded_frame hexec hout
  have hne : frameCrc (f ^^^ e) ≠ crc8 t.cfg (frameBody (f ^^^ e)) := by
    rw [hcfg, Ne, frameCrc_xor_eq_crc8_iff s.cfg e hcrc, hpoly]
    exact he.syndrome_ne_zero
  exact ⟨_, _, _, exec_of_crcStage_mismatch (exec_decreq t 1#1 (f ^^^ e) b') hne, rfl⟩

theorem exec_decreq_readBody (s : State) (chk : Bit) (addrField : BitVec 7) (dontCare : BitVec 13)
    (addrLow : BitVec 3) (b : BitVec 16) : ∃ crc,
    exec (.decreq chk (sealFrame s.cfg (readBody addrField dontCare addrLow)) b) s = .next (s.deliver
      (.request 0#1 addrField (dontCare ++ addrLow) (addrField ++ addrLow) crc crc)) := by
  rw [exec_decreq, sealFrame, requestOutcome_readBody, crcStage_of_passed _ (.inr rfl)]
  exact ⟨_, rfl⟩

theorem exec_decreq_writeBody (s : State) (chk : Bit) (addrField : BitVec 7) (value b : BitVec 16) : ∃ crc,
    exec (.decreq chk (sealFrame s.cfg (writeBody addrField value)) b) s = .next (s.deliver
      (.request 1#1 addrField value (addrField ++ 0#3) crc crc)) := by
  rw [exec_decreq, sealFrame, requestOutcome_writeBody, crcStage_of_passed _ (.inr rfl)]
  exact ⟨_, rfl⟩

theorem addrUpper_append_addrLower (a : RegAddr) : addrUpper a ++ addrLower a = a := by
  rw [addrUpper, addrLower, BitVec.extractLsb'_append_extractLsb'_eq_extractLsb' (by decide)]
  exact BitVec.extractLsb'_eq_self

/-- R68: where the policy accepts the address, a write comes back with bits 2:0 of it cleared. -/
theorem encw_decreq_round_trip (s : State) (c chk : Bit) (a : RegAddr) (v b' : BitVec 16)
    (haccepted : ¬(s.cfg.writeAddrLowPolicy = .reject ∧ addrLower a ≠ 0#3)) : ∃ t f u crc,
    exec (.encw c (a.setWidth 32) v) s = .next t ∧ t.output = some (.frame f) ∧
    exec (.decreq chk f b') t = .next u ∧
    u.output = some (.request 1#1 (addrUpper a) v (addrUpper a ++ 0#3) crc crc) := by
  have hexec := exec_encw_of_accepted s c (a.setWidth 32) v (by rwa [operandAddr_setWidth])
  rw [operandAddr_setWidth] at hexec
  obtain ⟨crc, hdecreq⟩ := exec_decreq_writeBody
    (s.deliver (.frame (sealFrame s.cfg (writeBody (addrUpper a) v)))) chk (addrUpper a) v b'
  exact ⟨_, _, _, crc, hexec, rfl, hdecreq, rfl⟩

theorem encr_decreq_round_trip (s : State) (c chk : Bit) (a : RegAddr) (b b' : BitVec 16) : ∃ t f u crc,
    exec (.encr c (a.setWidth 32) b) s = .next t ∧ t.output = some (.frame f) ∧
    exec (.decreq chk f b') t = .next u ∧
    u.output = some (.request 0#1 (addrUpper a) (0#13 ++ addrLower a) a crc crc) := by
  have hexec := exec_encr s c (a.setWidth 32) b
  rw [operandAddr_setWidth] at hexec
  obtain ⟨crc, hdecreq⟩ := exec_decreq_readBody
    (s.deliver (.frame (sealFrame s.cfg (readBody (addrUpper a) 0#13 (addrLower a))))) chk (addrUpper a) 0#13
    (addrLower a) b'
  rw [addrUpper_append_addrLower] at hdecreq
  exact ⟨_, _, _, crc, hexec, rfl, hdecreq, rfl⟩

/-- Settles O43: a read carries both parts of its address; a write the upper part alone, and the decoder reports zeros
below it. -/
theorem requestRoundTripLaws : Obligations.RequestRoundTripLaws := by
  refine ⟨fun s c chk a b b' => ?_, fun s c chk a v b' hlow => ?_, fun s c chk a v b' hdrop hlow => ?_⟩
  · have zext : (0#13 ++ addrLower a : BitVec 16) = (addrLower a).setWidth 16 :=
      (BitVec.setWidth_eq_append (by decide)).symm
    have h := encr_decreq_round_trip s c chk a b b'
    rw [zext] at h
    exact h
  · have h := encw_decreq_round_trip s c chk a v b' fun ⟨_, hne⟩ => hne hlow
    have hwhole : addrUpper a ++ 0#3 = a := by
      rw [← hlow]
      exact addrUpper_append_addrLower a
    rw [hwhole] at h
    exact h
  · obtain ⟨t, f, u, crc, hencw, hframe, hdecreq, hrequest⟩ :=
      encw_decreq_round_trip s c chk a v b' (by simp [hdrop])
    refine ⟨t, f, u, crc, hencw, hframe, hdecreq, hrequest, fun hsame => hlow ?_⟩
    rw [← hsame]
    exact BitVec.extractLsb'_append_eq_right

/-- Settles O41: neither the rebuilt address nor the bitmap is read from the don't-care bits. -/
theorem dontCareBitsChangeNoAddressOrBitmap : Obligations.DontCareBitsChangeNoAddressOrBitmap := by
  constructor
  · intro s crc addrField dontCare addrLow b
    have hexec := exec_decreq s 0#1 (frameOf crc (readBody addrField dontCare addrLow)) b
    rw [requestOutcome_readBody] at hexec
    exact ⟨_, _, _, exec_of_crcStage_passed hexec (.inl rfl), rfl⟩
  · intro s crc ignored bitmap b
    have hexec := exec_decrep_of_passed s (f := frameOf crc (criticalBody ignored bitmap)) b (.inl rfl)
    rw [replyOfMode_10 _ _ (frameMode_criticalBody ..), frameBitmap_criticalBody, frameCrc_frameOf] at hexec
    exact ⟨_, _, hexec, rfl⟩

/-! ## Replies -/

/-- R78: status 0 is no error. -/
theorem status16Outcome_of_eq_zero (cfg : Config) {status : BitVec 5} (rwEcho : Bit) (data : BitVec 16) (rx crc : Byte)
    (h : status = 0#5) : status16Outcome cfg status rwEcho data rx crc = .status16 rwEcho data rx crc :=
  if_neg (not_not.mpr h)

/-- Settles O30: mode 00 is a 16-bit reply, and its status is no error. -/
theorem decrepAnswersStatus16 : Obligations.DecrepAnswersStatus16 := by
  rintro s chk f b _ _ _ rfl rfl hpassed hmode hstatus rfl
  have hzero : frameStatus f = 0#5 := hstatus
  refine ⟨decodeCommand_101 chk f b, ?_⟩
  rw [exec_decrep_of_passed s b hpassed, replyOfMode_00 _ _ hmode, status16Outcome_of_eq_zero _ _ _ _ _ hzero]
  rfl

/-- Settles O31: the table of classes has an entry for the status. -/
theorem decrepReportsADeviceStatus : Obligations.DecrepReportsADeviceStatus := by
  rintro s chk f b _ _ _ rfl rfl hpassed hmode rfl hstatus
  refine ⟨_, getElem?_statusClass_eq_some_iff.mpr rfl, ?_⟩
  have hne : frameStatus f ≠ 0#5 := hstatus
  rw [exec_decrep_of_passed s b hpassed, replyOfMode_00 _ _ hmode, status16Outcome_of_ne_zero _ _ _ _ _ hne]
  rfl

/-- A field of a field is the field that stands `lo` bits higher. -/
theorem extractLsb'_extractLsb'_add {w start lo len len' : Nat} (x : BitVec w) (h : lo + len ≤ len') :
    (x.extractLsb' start len').extractLsb' lo len = x.extractLsb' (start + lo) len := by
  refine BitVec.eq_of_getLsbD_eq fun i hi => ?_
  have in_field : lo + i < len' := by omega
  simp [in_field, Nat.add_assoc]

/-- R49, R51: the reply mode of a frame is the top of what is the address field of a request. -/
theorem frameMode_eq_of_addrField {f : Frame} {a : BitVec 32} (h : frameAddrField f = a.extractLsb' 3 7) :
    frameMode f = a.extractLsb' 8 2 := by
  calc frameMode f = (frameAddrField f).extractLsb' 5 2 := by
        rw [frameAddrField, extractLsb'_extractLsb'_add f (by decide)]
        rfl
    _ = (a.extractLsb' 3 7).extractLsb' 5 2 := by rw [h]
    _ = a.extractLsb' 8 2 := extractLsb'_extractLsb'_add a (by decide)

/-- R49, R53: the status of a frame is the rest of what is the address field of a request. -/
theorem frameStatus_eq_of_addrField {f : Frame} {a : BitVec 32} (h : frameAddrField f = a.extractLsb' 3 7) :
    frameStatus f = a.extractLsb' 3 5 := by
  calc frameStatus f = (frameAddrField f).extractLsb' 0 5 := by
        rw [frameAddrField, extractLsb'_extractLsb'_add f (by decide)]
        rfl
    _ = (a.extractLsb' 3 7).extractLsb' 0 5 := by rw [h]
    _ = a.extractLsb' 3 5 := extractLsb'_extractLsb'_add a (by decide)

/-- Settles O42: an encoded frame passes the CRC stage, and the mode stage reads its address. -/
theorem decrepReadsARequestByItsAddressBits : Obligations.DecrepReadsARequestByItsAddressBits := by
  rintro s t chk chk' a b b' f _ hexec hout rfl
  obtain ⟨hcfg, hcrc, haddr⟩ := encoded_frame hexec hout
  rw [← frameMode_eq_of_addrField haddr, ← frameStatus_eq_of_addrField haddr]
  rw [← hcfg] at hcrc ⊢
  have hdecrep := exec_decrep_of_passed t (chk := chk') b' (.inr hcrc)
  rw [← hcrc] at hdecrep
  refine ⟨_, hdecrep, fun hmode hstatus => ?_, fun hmode hstatus => ?_, fun hmode => ?_, fun hmode => ?_,
    fun hmode => ?_⟩ <;> rw [State.deliver_output]
  · rw [replyOfMode_00 _ _ hmode, status16Outcome_of_eq_zero _ _ _ _ _ hstatus]
    rfl
  · refine ⟨_, getElem?_statusClass_eq_some_iff.mpr rfl, ?_⟩
    rw [replyOfMode_00 _ _ hmode, status16Outcome_of_ne_zero _ _ _ _ _ hstatus]
    rfl
  · rw [replyOfMode_01 _ _ hmode]
    rfl
  · rw [replyOfMode_10 _ _ hmode]
    rfl
  · rw [replyOfMode_11 _ _ hmode]
    rfl

end Sys2Proof.Machine
end

section
/-! PROOFS. The lines of the assembler (R59, R60), and words of the tables (R44, R47, R48, R53, R54). -/

namespace Sys2Proof.Machine

/-- Settles O12: each word is decoded by its row. -/
theorem specWordsDecode : Obligations.SpecWordsDecode := by
  unfold Obligations.SpecWordsDecode
  decide

theorem operandValue_of_frame {observed : List CodecOutcome} {k : Nat} {f : Frame}
    (h : observed[k]? = some (.frame f)) : operandValue observed (.ref (k + 1)) = .ok f := by
  simp [operandValue, (referencedFrame_succ_eq_some_iff observed k f).mpr h]

theorem operandValue_of_no_frame {observed : List CodecOutcome} {k : Nat}
    (h : ∀ n f, k = n + 1 → observed[n]? ≠ some (.frame f)) :
    operandValue observed (.ref k) = .error (.noSuchFrame k) := by
  obtain ⟨v, hexists, -⟩ | ⟨k', hk, -, herror⟩ := operandValue_cases observed (.ref k)
  · obtain ⟨n, f, hn, hf⟩ := (operandExists_ref_iff observed k).mp hexists
    exact absurd hf (h n f hn)
  · cases hk
    exact herror

section
variable {observed : List CodecOutcome} {x : AsmOperand} {v : BitVec 32}

/-- R59, R45: a line with one operand has the low bits of its value in A, and zero above them. -/
theorem lineCommand_of_value (op : BitVec 3) (chk : Bit) {width ignored : Nat} (hwidth : ignored + width = 32)
    (h : operandValue observed x = .ok v) : lineCommand op chk width observed x =
      .ok { op := op, chk := chk, a := (0#ignored ++ v.extractLsb' 0 width).cast hwidth, b := 0#16 } := by
  rw [← operandA_eq_append hwidth, lineCommand, h]

theorem lineCommand_32_of_value (op : BitVec 3) (chk : Bit) (h : operandValue observed x = .ok v) :
    lineCommand op chk 32 observed x = .ok { op := op, chk := chk, a := v, b := 0#16 } := by
  simp [lineCommand, h, operandA_32]

theorem lineCommand_of_error (op : BitVec 3) (chk : Bit) (width : Nat) {r : AsmReject}
    (h : operandValue observed x = .error r) : lineCommand op chk width observed x = .error r := by
  rw [lineCommand, h]

theorem encwCommand_of_values {addr val : AsmOperand} {a : BitVec 32} (haddr : operandValue observed addr = .ok a)
    (hval : operandValue observed val = .ok v) : encwCommand observed addr val =
      .ok { op := 0b011#3, chk := 0#1, a := 0#22 ++ a.extractLsb' 0 10, b := v.extractLsb' 0 16 } := by
  have hlow : operandA 10 a = 0#22 ++ a.extractLsb' 0 10 := operandA_eq_append (ignored := 22) rfl a
  simp [encwCommand, haddr, hval, hlow, operandB]

theorem encwCommand_of_first_error {addr : AsmOperand} {r : AsmReject} (haddr : operandValue observed addr = .error r)
    (val : AsmOperand) : encwCommand observed addr val = .error r := by
  simp [encwCommand, haddr]

theorem encwCommand_of_second_error {addr val : AsmOperand} {a : BitVec 32} {r : AsmReject}
    (haddr : operandValue observed addr = .ok a) (hval : operandValue observed val = .error r) :
    encwCommand observed addr val = .error r := by
  simp [encwCommand, haddr, hval]

end

/-- R22: a literal in a column of `width` bits. -/
theorem extractLsb'_zero_ofNat {width : Nat} (h : width ≤ 32) (v : Nat) :
    (BitVec.ofNat 32 v).extractLsb' 0 width = BitVec.ofNat width v := by
  refine BitVec.eq_of_toNat_eq ?_
  simp [Nat.mod_mod_of_dvd v (Nat.pow_dvd_pow 2 h)]

/-- Settles O17: an operand has a value, and the line takes from it the bits of its column. -/
theorem assemblerLinesStandForTheirCommands : Obligations.AssemblerLinesStandForTheirCommands := by
  refine ⟨fun obs m f addr val => ?_, fun obs k f hf => ?_, fun obs x => ⟨rfl, rfl⟩⟩
  · rw [← extractLsb'_zero_ofNat (width := 24) (by decide) m, ← extractLsb'_zero_ofNat (width := 10) (by decide) addr,
      ← extractLsb'_zero_ofNat (width := 16) (by decide) val]
    have hm := operandValue_lit obs m
    have hf := operandValue_lit obs f
    have haddr := operandValue_lit obs addr
    have hval := operandValue_lit obs val
    exact ⟨lineCommand_of_value _ _ (ignored := 8) rfl hm, lineCommand_32_of_value _ _ hf,
      lineCommand_of_value _ _ (ignored := 22) rfl haddr, encwCommand_of_values haddr hval,
      lineCommand_32_of_value _ _ hf, lineCommand_32_of_value _ _ hf, lineCommand_32_of_value _ _ hf,
      lineCommand_32_of_value _ _ hf⟩
  · have hf := operandValue_of_frame hf
    refine ⟨lineCommand_of_value _ _ (ignored := 8) rfl hf, lineCommand_32_of_value _ _ hf,
      lineCommand_of_value _ _ (ignored := 22) rfl hf, fun val => ?_, fun addr => ?_, fun j g hg => ?_,
      lineCommand_32_of_value _ _ hf, lineCommand_32_of_value _ _ hf, lineCommand_32_of_value _ _ hf,
      lineCommand_32_of_value _ _ hf⟩
    · rw [← extractLsb'_zero_ofNat (width := 16) (by decide) val]
      exact encwCommand_of_values hf (operandValue_lit obs val)
    · rw [← extractLsb'_zero_ofNat (width := 10) (by decide) addr]
      exact encwCommand_of_values (operandValue_lit obs addr) hf
    · exact encwCommand_of_values hf (operandValue_of_frame hg)

/-- Settles O18: an operand that names no frame has no value, and the line no command; where all operands exist, the
line is not rejected. -/
theorem assemblerRejectsByName : Obligations.AssemblerRejectsByName := by
  refine ⟨fun obs k hk => ?_, fun obs l hall => ?_⟩
  · have herror := operandValue_of_no_frame hk
    exact ⟨lineCommand_of_error _ _ _ herror, lineCommand_of_error _ _ _ herror, lineCommand_of_error _ _ _ herror,
      encwCommand_of_first_error herror,
      fun addr => encwCommand_of_second_error (operandValue_lit obs addr) herror,
      fun j g hg => encwCommand_of_second_error (operandValue_of_frame hg) herror,
      lineCommand_of_error _ _ _ herror, lineCommand_of_error _ _ _ herror, lineCommand_of_error _ _ _ herror,
      lineCommand_of_error _ _ _ herror⟩
  · rw [assemble_eq_ok_iff_operands_exist, List.all_eq_true]
    intro x hmem
    cases x with
    | lit v => exact operandExists_lit obs v
    | ref k => exact (operandExists_ref_iff obs k).mpr (hall k hmem)

end Sys2Proof.Machine
end
